-- ==== Sys2Proof/Word.lean ====
section
/-! DEFINITION. The widths of the engine's words (R8, R10, R22, R80): every one is a fixed-width bit vector,
bit 0 the least significant bit. -/

namespace Sys2Proof

/-- A byte has bits 7..0 (R10). -/
abbrev Byte := BitVec 8

/-- A nibble: 4 bits (R15). -/
abbrev Nibble := BitVec 4

/-- A bus address: 7 bits (R23, R34). -/
abbrev BusAddr := BitVec 7

/-- A request opcode: `req_word[19:16]` (R80). -/
abbrev Opcode := BitVec 4

/-- A request word: `REQ_WIDTH` = 20 bits (R8, R80). -/
abbrev ReqWord := BitVec 20

/-- The step counter: `STEP_WIDTH` = 5 bits (R8, R25). -/
abbrev StepIndex := BitVec 5

/-- A result word: `RES`, `RSPR`, `rsp_result` (R22, R24). -/
abbrev ResultBits := BitVec 3

end Sys2Proof
end

