-- ==== Sys2Proof/Syntax.lean ====
section
/-! DEFINITION. The instructions: one constructor for each of the 25 rows of spec/opcode_table.json.

The first sixteen are the requests (R84, R85), one for each opcode. A request has both operand bytes whatever its opcode,
because Accept latches them also where the plan ignores them (R27, R81); an ignored byte is named `a` or `b`, as the
request word names it. The last nine are the classes of LCD command bytes (R94 to R101); their fields are the letters of
the table's `encoding` pattern, from its left to its right, don't-care bits included.
Each field is a bit vector of exactly the width of its place in the encoding. -/

namespace Sys2Proof

/-- One instruction of the opcode table. -/
inductive Instr where
  /-- INIT, `op = 0x1` (R121). -/
  | init (a b : Byte)
  /-- SEND_COMMAND, `op = 0x2` (R130): `a` is the command byte. -/
  | sendCommand (value b : Byte)
  /-- SEND_DATA, `op = 0x3` (R135): `a` is the character byte. -/
  | sendData (value b : Byte)
  /-- SET_CURSOR, `op = 0x4` (R150): `a` is the row, `b` the column. -/
  | setCursor (row column : Byte)
  /-- CLEAR, `op = 0x5` (R155). -/
  | clear (a b : Byte)
  /-- RESERVED_0, `op = 0x0` (R85). -/
  | reserved0 (a b : Byte)
  /-- RESERVED_6, `op = 0x6` (R85). -/
  | reserved6 (a b : Byte)
  /-- RESERVED_7, `op = 0x7` (R85). -/
  | reserved7 (a b : Byte)
  /-- RESERVED_8, `op = 0x8` (R85). -/
  | reserved8 (a b : Byte)
  /-- RESERVED_9, `op = 0x9` (R85). -/
  | reserved9 (a b : Byte)
  /-- RESERVED_A, `op = 0xA` (R85). -/
  | reservedA (a b : Byte)
  /-- RESERVED_B, `op = 0xB` (R85). -/
  | reservedB (a b : Byte)
  /-- RESERVED_C, `op = 0xC` (R85). -/
  | reservedC (a b : Byte)
  /-- RESERVED_D, `op = 0xD` (R85). -/
  | reservedD (a b : Byte)
  /-- RESERVED_E, `op = 0xE` (R85). -/
  | reservedE (a b : Byte)
  /-- RESERVED_F, `op = 0xF` (R85). -/
  | reservedF (a b : Byte)
  /-- LCD_NO_INSTRUCTION, `00000000` (R101). -/
  | lcdNoInstruction
  /-- LCD_CLEAR_DISPLAY, `00000001` (R94). -/
  | lcdClearDisplay
  /-- LCD_RETURN_HOME, `0000001x` (R95). -/
  | lcdReturnHome (x : BitVec 1)
  /-- LCD_ENTRY_MODE_SET, `000001IS` (R99): increment, shift. -/
  | lcdEntryModeSet (inc shift : BitVec 1)
  /-- LCD_DISPLAY_CONTROL, `00001DCB` (R98): display, cursor, blink. -/
  | lcdDisplayControl (display cursor blink : BitVec 1)
  /-- LCD_CURSOR_DISPLAY_SHIFT, `0001SRxx` (R101): display or cursor, right or left. -/
  | lcdCursorDisplayShift (select right : BitVec 1) (x : BitVec 2)
  /-- LCD_FUNCTION_SET, `001DNFxx` (R97): data length, lines, font. -/
  | lcdFunctionSet (dataLength lines font : BitVec 1) (x : BitVec 2)
  /-- LCD_SET_CGRAM_ADDRESS, `01aaaaaa` (R101). -/
  | lcdSetCgramAddress (addr : BitVec 6)
  /-- LCD_SET_DDRAM_ADDRESS, `1aaaaaaa` (R96). -/
  | lcdSetDdramAddress (addr : BitVec 7)
  deriving DecidableEq, Repr

end Sys2Proof
end

