-- ==== Sys2Proof/WellFormed.lean ====
section
/-! DEFINITION. Well-formedness of instructions.

The engine refuses no instruction: "every 20-bit word whose `op` is 0x1 to 0x5 is a valid request whatever its other bits"
(R85), a reserved opcode is "accepted like any other" (R85), and any byte is a command byte (R101). The fields of `Instr`
have exactly the widths of the encoding, so EVERY term of `Instr` is a valid instruction and no check can refuse one.
(A raw number too wide for its row is refused by name, `Code.ofBits` in Decode.lean.)

What can be checked is the form the assembler writes: "The assembler of rule R106 writes 0 in every unused field" (R81). -/

namespace Sys2Proof

/-- The form of an assembled request (R81, R106): every field the instruction does not use is 0. -/
def Instr.canonical : Instr → Bool
  | .init a b => a == 0 && b == 0
  | .sendCommand _ b => b == 0
  | .sendData _ b => b == 0
  | .setCursor _ _ => true
  | .clear a b => a == 0 && b == 0
  | .reserved0 a b => a == 0 && b == 0
  | .reserved6 a b => a == 0 && b == 0
  | .reserved7 a b => a == 0 && b == 0
  | .reserved8 a b => a == 0 && b == 0
  | .reserved9 a b => a == 0 && b == 0
  | .reservedA a b => a == 0 && b == 0
  | .reservedB a b => a == 0 && b == 0
  | .reservedC a b => a == 0 && b == 0
  | .reservedD a b => a == 0 && b == 0
  | .reservedE a b => a == 0 && b == 0
  | .reservedF a b => a == 0 && b == 0
  | .lcdNoInstruction => true
  | .lcdClearDisplay => true
  | .lcdReturnHome x => x == 0
  | .lcdEntryModeSet _ _ => true
  | .lcdDisplayControl _ _ _ => true
  | .lcdCursorDisplayShift _ _ x => x == 0
  | .lcdFunctionSet _ _ _ x => x == 0
  | .lcdSetCgramAddress _ => true
  | .lcdSetDdramAddress _ => true

end Sys2Proof
end

