-- ==== Sys2Proof/Decode.lean ====
section
/-! DEFINITION. The decoder and, after it, the encoder.

An instruction comes in one of two widths: a request word of 20 bits (R80, R86) or an LCD command byte of 8 bits (R94 to
R101). On both the decoder is total: it refuses nothing (R85, R101). Only a raw number that is no such word is refused, by
name (`Code.ofBits`).
The patterns of the two decoders are the `encoding` strings of spec/opcode_table.json, most significant bit first. -/

namespace Sys2Proof

/-! ### Fields of the request word (R80) -/

/-- `op = req_word[19:16]`. -/
def ReqWord.opcode (w : ReqWord) : Opcode := w.extractLsb' 16 4

/-- `a = req_word[15:8]`. -/
def ReqWord.argA (w : ReqWord) : Byte := w.extractLsb' 8 8

/-- `b = req_word[7:0]`. -/
def ReqWord.argB (w : ReqWord) : Byte := w.extractLsb' 0 8

/-- The request word with the given fields (R80): `{op, a, b}`. -/
def ReqWord.ofFields (op : Opcode) (a b : Byte) : ReqWord := op ++ a ++ b

/-! ### The decoders -/

/-- Decoding of a request: "a decoder reads `op` from bits 19..16 and nothing else to select the request" (R86; opcodes R84,
R85). -/
def decodeRequest (w : ReqWord) : Instr :=
  let a := ReqWord.argA w
  let b := ReqWord.argB w
  match w.getLsbD 19, w.getLsbD 18, w.getLsbD 17, w.getLsbD 16 with
  | false, false, false, true  => .init a b
  | false, false, true,  false => .sendCommand a b
  | false, false, true,  true  => .sendData a b
  | false, true,  false, false => .setCursor a b
  | false, true,  false, true  => .clear a b
  | false, false, false, false => .reserved0 a b
  | false, true,  true,  false => .reserved6 a b
  | false, true,  true,  true  => .reserved7 a b
  | true,  false, false, false => .reserved8 a b
  | true,  false, false, true  => .reserved9 a b
  | true,  false, true,  false => .reservedA a b
  | true,  false, true,  true  => .reservedB a b
  | true,  true,  false, false => .reservedC a b
  | true,  true,  false, true  => .reservedD a b
  | true,  true,  true,  false => .reservedE a b
  | true,  true,  true,  true  => .reservedF a b

/-- Decoding of an LCD command byte "by its highest set bit" (R101; the spec marks it as general knowledge, log 8). -/
def decodeLcdCommand (v : Byte) : Instr :=
  match v.getLsbD 7, v.getLsbD 6, v.getLsbD 5, v.getLsbD 4, v.getLsbD 3, v.getLsbD 2, v.getLsbD 1, v.getLsbD 0 with
  | true,  _, _, _, _, _, _, _ => .lcdSetDdramAddress (v.extractLsb' 0 7)
  | false, true,  _, _, _, _, _, _ => .lcdSetCgramAddress (v.extractLsb' 0 6)
  | false, false, true,  _, _, _, _, _ =>
      .lcdFunctionSet (v.extractLsb' 4 1) (v.extractLsb' 3 1) (v.extractLsb' 2 1) (v.extractLsb' 0 2)
  | false, false, false, true,  _, _, _, _ =>
      .lcdCursorDisplayShift (v.extractLsb' 3 1) (v.extractLsb' 2 1) (v.extractLsb' 0 2)
  | false, false, false, false, true,  _, _, _ =>
      .lcdDisplayControl (v.extractLsb' 2 1) (v.extractLsb' 1 1) (v.extractLsb' 0 1)
  | false, false, false, false, false, true,  _, _ => .lcdEntryModeSet (v.extractLsb' 1 1) (v.extractLsb' 0 1)
  | false, false, false, false, false, false, true,  _ => .lcdReturnHome (v.extractLsb' 0 1)
  | false, false, false, false, false, false, false, true => .lcdClearDisplay
  | false, false, false, false, false, false, false, false => .lcdNoInstruction

/-- The bits of one instruction, at one of the two widths of the opcode table. -/
inductive Code where
  /-- A 20-bit request word (table format `request20`). -/
  | request (w : ReqWord)
  /-- An 8-bit LCD command byte (table format `lcd_command8`). -/
  | lcdByte (v : Byte)
  deriving DecidableEq, Repr

/-- Why a raw number is no instruction's bits. -/
inductive CodeReject where
  /-- The number of bits is neither that of a command byte (8) nor that of a request (20, or 24 in whole bytes). -/
  | noSuchWidth
  /-- A bit is set above the instruction's highest bit: the port `req_word` has 20 wires (R32). -/
  | bitAboveWord
  deriving DecidableEq, Repr

/-- The instruction's bits in a raw number of `nbits` bits, or why there is none. -/
def Code.ofBits (nbits w : Nat) : Except CodeReject Code :=
  if nbits = 8 then
    if w < 2 ^ 8 then .ok (.lcdByte (BitVec.ofNat 8 w)) else .error .bitAboveWord
  else if 20 ≤ nbits ∧ nbits ≤ 24 then
    if w < 2 ^ 20 then .ok (.request (BitVec.ofNat 20 w)) else .error .bitAboveWord
  else .error .noSuchWidth

/-- The decoder: total on both kinds of word. -/
def decode : Code → Instr
  | .request w => decodeRequest w
  | .lcdByte v => decodeLcdCommand v

/-- The instruction the decoder reads from an instruction whose bits are `w`, numbered as spec/opcode_table.json numbers
them; `nbits` is the row's number of bits, in whole bytes. -/
def decodeTableWord (nbits w : Nat) : Option Instr :=
  match Code.ofBits nbits w with
  | .ok c => some (decode c)
  | .error _ => none

/-! ### Named constants of the LCD command bytes (R102) -/

/-- `CMD_CLEAR`: clear display (R94). -/
def cmdClear : Byte := 0x01
/-- `CMD_HOME`: return home (R95). -/
def cmdHome : Byte := 0x02
/-- `CMD_ENTRY`: entry mode set (R99). -/
def cmdEntry : Byte := 0x04
/-- `ENTRY_INC`: increment (R99). -/
def entryInc : Byte := 0x02
/-- `ENTRY_SHIFT`: auto-shift (R99; general knowledge, no plan holds it). -/
def entryShift : Byte := 0x01
/-- `CMD_DISPLAY`: display control (R98). -/
def cmdDisplay : Byte := 0x08
/-- `DISPLAY_ON` (R98). -/
def displayOn : Byte := 0x04
/-- `DISPLAY_CURSOR` (R98; general knowledge, no plan holds it). -/
def displayCursor : Byte := 0x02
/-- `DISPLAY_BLINK` (R98; general knowledge, no plan holds it). -/
def displayBlink : Byte := 0x01
/-- `CMD_FUNCTION`: function set (R97). -/
def cmdFunction : Byte := 0x20
/-- `FUNCTION_8BIT` (R97; general knowledge, no plan holds it). -/
def function8Bit : Byte := 0x10
/-- `FUNCTION_2LINE` (R97). -/
def function2Line : Byte := 0x08
/-- `FUNCTION_5x10` (R97; general knowledge, no plan holds it). -/
def function5x10 : Byte := 0x04
/-- `CMD_DDRAM`: set DDRAM address (R96). -/
def cmdDdram : Byte := 0x80
/-- The cursor or display shift instruction, 0x10 (R101; general knowledge, no plan holds it). -/
def cmdShift : Byte := 0x10
/-- The set CGRAM address instruction, 0x40 (R101; general knowledge, no plan holds it). -/
def cmdCgram : Byte := 0x40

/-- The mask `m` where the one-bit field `f` is 1, and 0 where it is 0. -/
def flagBit (f : BitVec 1) (m : Byte) : Byte := if f = 1 then m else 0

/-! ### The encoder -/

/-- The request opcodes (R84, R85). The LCD rows have no opcode of their own; a command byte travels by SEND_COMMAND. -/
def Instr.opcode : Instr → Opcode
  | .init _ _ => 0x1
  | .sendCommand _ _ => 0x2
  | .sendData _ _ => 0x3
  | .setCursor _ _ => 0x4
  | .clear _ _ => 0x5
  | .reserved0 _ _ => 0x0
  | .reserved6 _ _ => 0x6
  | .reserved7 _ _ => 0x7
  | .reserved8 _ _ => 0x8
  | .reserved9 _ _ => 0x9
  | .reservedA _ _ => 0xA
  | .reservedB _ _ => 0xB
  | .reservedC _ _ => 0xC
  | .reservedD _ _ => 0xD
  | .reservedE _ _ => 0xE
  | .reservedF _ _ => 0xF
  | .lcdNoInstruction => 0x2
  | .lcdClearDisplay => 0x2
  | .lcdReturnHome _ => 0x2
  | .lcdEntryModeSet _ _ => 0x2
  | .lcdDisplayControl _ _ _ => 0x2
  | .lcdCursorDisplayShift _ _ _ => 0x2
  | .lcdFunctionSet _ _ _ _ => 0x2
  | .lcdSetCgramAddress _ => 0x2
  | .lcdSetDdramAddress _ => 0x2

/-- Clear display: the byte 0x01 (R94). -/
def lcdClearDisplayByte : Byte := cmdClear

/-- Return home: 0x02 (R95); bit 0 a don't-care (opcode_table.json). -/
def lcdReturnHomeByte (x : BitVec 1) : Byte := cmdHome ||| x.setWidth 8

/-- Entry mode set: `0x04 | ID | S` (R99). -/
def lcdEntryModeSetByte (inc shift : BitVec 1) : Byte := cmdEntry ||| flagBit inc entryInc ||| flagBit shift entryShift

/-- Display control: `0x08 | D | C | B` (R98). -/
def lcdDisplayControlByte (display cursor blink : BitVec 1) : Byte :=
  cmdDisplay ||| flagBit display displayOn ||| flagBit cursor displayCursor ||| flagBit blink displayBlink

/-- Cursor or display shift: `0001SRxx` (R101, opcode_table.json). -/
def lcdCursorDisplayShiftByte (select right : BitVec 1) (x : BitVec 2) : Byte :=
  cmdShift ||| flagBit select 0x08 ||| flagBit right 0x04 ||| x.setWidth 8

/-- Function set: `0x20 | DL | N | F` (R97); bits 1..0 don't-cares (opcode_table.json). -/
def lcdFunctionSetByte (dataLength lines font : BitVec 1) (x : BitVec 2) : Byte :=
  cmdFunction ||| flagBit dataLength function8Bit ||| flagBit lines function2Line ||| flagBit font function5x10
    ||| x.setWidth 8

/-- Set CGRAM address: `01aaaaaa` (R101, opcode_table.json). -/
def lcdSetCgramAddressByte (addr : BitVec 6) : Byte := cmdCgram ||| addr.setWidth 8

/-- Set DDRAM address: `0x80 | addr` (R96). -/
def lcdSetDdramAddressByte (addr : BitVec 7) : Byte := cmdDdram ||| addr.setWidth 8

/-- The encoder: the bits of an instruction (R80, R84, R85, R94 to R101). -/
def encode : Instr → Code
  | .init a b => .request (ReqWord.ofFields 0x1 a b)
  | .sendCommand v b => .request (ReqWord.ofFields 0x2 v b)
  | .sendData v b => .request (ReqWord.ofFields 0x3 v b)
  | .setCursor row column => .request (ReqWord.ofFields 0x4 row column)
  | .clear a b => .request (ReqWord.ofFields 0x5 a b)
  | .reserved0 a b => .request (ReqWord.ofFields 0x0 a b)
  | .reserved6 a b => .request (ReqWord.ofFields 0x6 a b)
  | .reserved7 a b => .request (ReqWord.ofFields 0x7 a b)
  | .reserved8 a b => .request (ReqWord.ofFields 0x8 a b)
  | .reserved9 a b => .request (ReqWord.ofFields 0x9 a b)
  | .reservedA a b => .request (ReqWord.ofFields 0xA a b)
  | .reservedB a b => .request (ReqWord.ofFields 0xB a b)
  | .reservedC a b => .request (ReqWord.ofFields 0xC a b)
  | .reservedD a b => .request (ReqWord.ofFields 0xD a b)
  | .reservedE a b => .request (ReqWord.ofFields 0xE a b)
  | .reservedF a b => .request (ReqWord.ofFields 0xF a b)
  | .lcdNoInstruction => .lcdByte 0x00
  | .lcdClearDisplay => .lcdByte lcdClearDisplayByte
  | .lcdReturnHome x => .lcdByte (lcdReturnHomeByte x)
  | .lcdEntryModeSet i sh => .lcdByte (lcdEntryModeSetByte i sh)
  | .lcdDisplayControl d c b => .lcdByte (lcdDisplayControlByte d c b)
  | .lcdCursorDisplayShift sel r x => .lcdByte (lcdCursorDisplayShiftByte sel r x)
  | .lcdFunctionSet dl n f x => .lcdByte (lcdFunctionSetByte dl n f x)
  | .lcdSetCgramAddress addr => .lcdByte (lcdSetCgramAddressByte addr)
  | .lcdSetDdramAddress addr => .lcdByte (lcdSetDdramAddressByte addr)

/-- The request word that carries the bits of an instruction to the engine: a request is its own word; an LCD command byte
`v` is "sent by SEND_COMMAND" (opcode_table.json), so its word is that of the assembler's `CMD v` (R106; log 7). -/
def Code.requestWord : Code → ReqWord
  | .request w => w
  | .lcdByte v => ReqWord.ofFields 0x2 v 0

/-! ### The opcode table's own fixed bits -/

/-- The `match` and `mask` of the instruction's row of spec/opcode_table.json. -/
def Instr.tableRow : Instr → Nat × Nat
  | .init _ _ => (0x10000, 0xF0000)
  | .sendCommand _ _ => (0x20000, 0xF0000)
  | .sendData _ _ => (0x30000, 0xF0000)
  | .setCursor _ _ => (0x40000, 0xF0000)
  | .clear _ _ => (0x50000, 0xF0000)
  | .reserved0 _ _ => (0x00000, 0xF0000)
  | .reserved6 _ _ => (0x60000, 0xF0000)
  | .reserved7 _ _ => (0x70000, 0xF0000)
  | .reserved8 _ _ => (0x80000, 0xF0000)
  | .reserved9 _ _ => (0x90000, 0xF0000)
  | .reservedA _ _ => (0xA0000, 0xF0000)
  | .reservedB _ _ => (0xB0000, 0xF0000)
  | .reservedC _ _ => (0xC0000, 0xF0000)
  | .reservedD _ _ => (0xD0000, 0xF0000)
  | .reservedE _ _ => (0xE0000, 0xF0000)
  | .reservedF _ _ => (0xF0000, 0xF0000)
  | .lcdNoInstruction => (0x00, 0xFF)
  | .lcdClearDisplay => (0x01, 0xFF)
  | .lcdReturnHome _ => (0x02, 0xFE)
  | .lcdEntryModeSet _ _ => (0x04, 0xFC)
  | .lcdDisplayControl _ _ _ => (0x08, 0xF8)
  | .lcdCursorDisplayShift _ _ _ => (0x10, 0xF0)
  | .lcdFunctionSet _ _ _ _ => (0x20, 0xE0)
  | .lcdSetCgramAddress _ => (0x40, 0xC0)
  | .lcdSetDdramAddress _ => (0x80, 0x80)

/-- The bits as a number, bit 0 the least significant (R10). -/
def Code.toNat : Code → Nat
  | .request w => w.toNat
  | .lcdByte v => v.toNat

end Sys2Proof
end

