-- ==== Sys2Proof/Config.lean ====
section
/-! DEFINITION. What an implementation fixes and the spec leaves open (00_scope.md R8, 92_eei_decisions.md "Open
parameters"). `LATENCY`, the transport's answers and the timer's completions are open too; they vary during a run, so they
stand in `State.inputs` (logs 1 and 2), not here. The parameters to which R8 gives a value (`INIT_DELAY_MS`, `ROW0_BASE`, `RS`, `EN`,
`BL` and the others) are definitions of Machine/Operands.lean. -/

namespace Sys2Proof

/-- `BRIDGE_ADDR`: "7-bit value, OPEN, model argument" (R8, U13): the value `cfg_addr` holds at the power-on reset. No body:
no proof can learn its value (log 4). -/
opaque Config.bridgeAddr : BusAddr

end Sys2Proof
end

