-- ==== Sys2Proof/Machine/State.lean ====
section
/-! DEFINITION. The state of the machine, as plain data: the ten registers of R22, the inputs still to come, and the
history of what the engine did. -/

namespace Sys2Proof.Machine

/-- An event of a plan (R83): `W(b)`, a bus write of one byte, or `D(ms)`, a delay. -/
inductive PlanEvent where
  /-- `W(b)`: `BusWrite(ADDR, b)` (R13, R14). -/
  | write (data : Byte)
  /-- `D(ms)`: `Delay(ms)` (R13, R14). -/
  | delay (ms : Byte)
  deriving DecidableEq, Repr

/-- The transport's answer to a bus write (R13). -/
inductive Answer where
  | ok
  | fail
  deriving DecidableEq, Repr

/-- One item of the history. `write`, `delay` and `respond` are the events of the engine's trace (R50); `reset` and
`accepted` mark the two things that happen between them. -/
inductive HistoryItem where
  /-- A reset, with the address sampled (R230). -/
  | reset (addr : BusAddr)
  /-- A request word was accepted (R27). -/
  | accepted (word : ReqWord)
  /-- A bus write was issued (R28); `answer` is `none` until the transport completes it (R29). -/
  | write (addr : BusAddr) (data : Byte) (answer : Option Answer)
  /-- A delay was issued (R28); `completed` is false until the timer completes it (R29). -/
  | delay (ms : Byte) (completed : Bool)
  /-- A response was given (R30). -/
  | respond (result : ResultBits)
  deriving DecidableEq, Repr

/-- The engine's registers: "exactly the registers of the table in rule R22" (R20). -/
structure Regs where
  /-- `ADDR`: bridge bus address. -/
  addr : BusAddr
  /-- `BUSY`: 1 while a request is being executed. -/
  busy : Bool
  /-- `OP`: latched request opcode. -/
  op : Opcode
  /-- `A`: latched first argument. -/
  a : Byte
  /-- `B`: latched second argument. -/
  b : Byte
  /-- `STEP`: index of the current event in `plan(OP, A, B)`. -/
  step : StepIndex
  /-- `PEND`: 1 while event `plan[STEP]` is issued and not completed. -/
  pend : Bool
  /-- `RES`: result accumulator of the current request. -/
  res : ResultBits
  /-- `RSPV`: response valid, a one-cycle pulse. -/
  rspv : Bool
  /-- `RSPR`: response result. -/
  rspr : ResultBits
  deriving DecidableEq, Repr

/-- The input ports of R32 at one rising edge of `clk`, and `stall`, which is no port: it says that in this cycle the
engine fires no Issue and no Respond, for the open `LATENCY` (R246; log 2). -/
structure Inputs where
  /-- `rst`: synchronous reset, active high. -/
  rst : Bool
  /-- `cfg_addr`: bridge address, sampled into `ADDR` at reset. -/
  cfgAddr : BusAddr
  /-- `req_valid`: the host presents a request. -/
  reqValid : Bool
  /-- `req_word`: the request. -/
  reqWord : ReqWord
  /-- `bw_done`: the transport completes the outstanding write. -/
  bwDone : Bool
  /-- `bw_fail`: with `bw_done`, the write failed. -/
  bwFail : Bool
  /-- `dl_done`: the timer completes the outstanding delay. -/
  dlDone : Bool
  /-- The engine's own idle cycle (`LATENCY`). -/
  stall : Bool
  deriving DecidableEq, Repr

/-- A cycle in which nothing is asserted. -/
def Inputs.quiet : Inputs :=
  { rst := false, cfgAddr := 0, reqValid := false, reqWord := 0, bwDone := false, bwFail := false, dlDone := false,
    stall := false }

/-- The whole state. -/
structure State where
  /-- The engine's registers (R22). -/
  regs : Regs
  /-- What the host, the transport and the timer will drive, one entry for each coming clock edge, the next one first;
  after the last one every cycle is quiet (log 1). -/
  inputs : List Inputs
  /-- What the engine did, newest first (R50; log 3). No register depends on it. -/
  history : List HistoryItem
  deriving DecidableEq, Repr

/-- There is no fault: "No exception is ever raised and no trap is ever taken" (R200). A closed inductive with no
constructor, so that no step can end in one (safe: nothing is left out). -/
inductive Fault
  deriving DecidableEq, Repr

/-- Why an instruction has no meaning. -/
inductive Refusal where
  /-- Raised by an arm of `exec` whose instruction is not modelled; no arm does. Safe: the machine stops. -/
  | notModelled (mnemonic : String)
  deriving DecidableEq, Repr

/-- The registers after a reset with `cfg_addr = addr` (R22, R230). -/
def Regs.reset (addr : BusAddr) : Regs :=
  { addr := addr, busy := false, op := 0, a := 0, b := 0, step := 0, pend := false, res := 0, rspv := false, rspr := 0 }

/-- The machine right after reset (R230): every register at its reset value of R22, `ADDR` at `BRIDGE_ADDR` (log 4); the
host presents nothing yet (R232; logs 1 and 12) and nothing has happened (log 3). -/
def State.reset : State := { regs := Regs.reset Config.bridgeAddr, inputs := [], history := [] }

end Sys2Proof.Machine
end

