-- ==== Sys2Proof/Machine/Operands.lean ====
section
/-! DEFINITION. The parameters with a value (R8) and every operand form: the nibble frames of a byte (R170), the register
select, and the command byte of a cursor position (R151). Operands are unsigned bytes used as they stand (R87). -/

namespace Sys2Proof.Machine

/-- `RS` = 0x01: register select, frame bit 0 (R8, R90; D9, log 5). -/
def maskRS : Byte := 0x01
/-- `RW` = 0x02: read/write, frame bit 1, always 0 (R8, R90; D9, log 5). -/
def maskRW : Byte := 0x02
/-- `EN` = 0x04: enable, frame bit 2 (R8, R90; D9, log 5). -/
def maskEN : Byte := 0x04
/-- `BL` = 0x08: backlight, frame bit 3 (R8, R90; D9, log 5). -/
def maskBL : Byte := 0x08

/-- `INIT_DELAY_MS` = 15 (R8, R123; C6). -/
def initDelayMs : Byte := 15
/-- `CMD_DELAY_MS` = 2 (R8, R132; C6). -/
def cmdDelayMs : Byte := 2

/-- `ROW0_BASE` = 0x80 (R8, C1; log 6). -/
def row0Base : Byte := 0x80
/-- `ROW1_BASE` = 0xC0 (R8). -/
def row1Base : Byte := 0xC0

/-- Which LCD register a byte goes to (R15, R34): "command=0 vs data=1". -/
inductive RegSelect where
  | command
  | data
  deriving DecidableEq, Repr

/-- The value `r ∈ {0, RS}` of a register select (R170). -/
def RegSelect.bits : RegSelect → Byte
  | .command => 0
  | .data => maskRS

/-- `hi(v, r) = (v & 0xF0) | r`: the high nibble of `v` in bits 7..4 (R170). -/
def hiFrame (v : Byte) (r : RegSelect) : Byte := (v &&& 0xF0) ||| r.bits

/-- `lo(v, r) = ((v << 4) & 0xF0) | r`: the low nibble of `v`, shifted into bits 7..4 (R170). -/
def loFrame (v : Byte) (r : RegSelect) : Byte := ((v <<< 4) &&& 0xF0) ||| r.bits

/-- The command byte of a cursor position, `none` for a row other than 0 and 1 (R151, R152): the row is compared on all 8
bits (R87) and the sum is modulo 256 (R11). -/
def cursorByte (row column : Byte) : Option Byte :=
  if row = 0x00 then some (row0Base + column)
  else if row = 0x01 then some (row1Base + column)
  else none

end Sys2Proof.Machine
end

