-- ==== Sys2Proof/Machine/Flags.lean ====
section
/-! DEFINITION. The engine's only flags: the bits of `RES` and `RSPR` (R24), and what sets each (R27, R29, R203). -/

namespace Sys2Proof.Machine

/-- Bit 0, `BUSFAIL` (R24). -/
def flagBusFail : ResultBits := 0b001
/-- Bit 1, `NOCMD` (R24). -/
def flagNoCmd : ResultBits := 0b010
/-- Bit 2, `BADOP` (R24). -/
def flagBadOp : ResultBits := 0b100

/-- `OP_is_reserved` (R85): true exactly for 0x0 and 0x6 to 0xF. -/
def opIsReserved (op : Opcode) : Bool := op == 0x0 || 0x6 ≤ op

/-- The request is SET_CURSOR with a row not in {0, 1} (R24, R27). -/
def rowIsIgnored (op : Opcode) (a : Byte) : Bool := op == 0x4 && !(a == 0x00 || a == 0x01)

/-- A result word from its three bits, `{BADOP, NOCMD, BUSFAIL}` (R24). -/
def resultBits (badOp noCmd busFail : Bool) : ResultBits :=
  (if badOp then flagBadOp else 0) ||| (if noCmd then flagNoCmd else 0) ||| (if busFail then flagBusFail else 0)

/-- What Accept loads into `RES` (R27). -/
def resAtAccept (op : Opcode) (a : Byte) : ResultBits := resultBits (opIsReserved op) (rowIsIgnored op a) false

/-- `RES.BUSFAIL <- RES.BUSFAIL | bw_fail` (R29). -/
def resAfterWrite (res : ResultBits) (fail : Bool) : ResultBits := if fail then res ||| flagBusFail else res

end Sys2Proof.Machine
end

