-- ==== Sys2Proof/Machine/Plan.lean ====
section
/-! DEFINITION. The plans: the ordered event list a request expands to (R82). The nibble multiplexer and the enable pulse
(R170 to R172), the command and data plans (R131, R136), and the plan of each request. -/

namespace Sys2Proof.Machine

/-- `frame_pair(f) = [W(f | BL | EN), W((f & ~EN) | BL)]`: the enable pulse (R171). The term `f & ~EN` is kept although
`EN` is never set in a frame value (R178). -/
def framePair (f : Byte) : List PlanEvent :=
  [.write (f ||| maskBL ||| maskEN), .write ((f &&& ~~~maskEN) ||| maskBL)]

/-- `encode(v, r) = frame_pair(hi(v, r)) ++ frame_pair(lo(v, r))`: the nibble multiplexer (R172). -/
def encodeByte (v : Byte) (r : RegSelect) : List PlanEvent := framePair (hiFrame v r) ++ framePair (loFrame v r)

/-- `cmd(v) = encode(v, 0) ++ [D(CMD_DELAY_MS)]` (R131). -/
def cmdPlan (v : Byte) : List PlanEvent := encodeByte v .command ++ [.delay cmdDelayMs]

/-- `data(v) = encode(v, RS)`: no delay (R136, R137). -/
def dataPlan (v : Byte) : List PlanEvent := encodeByte v .data

/-- `plan_init` (R122): the settling wait, then return home, function set (4-bit, two lines, 5x8), display control (display
on, cursor off, blink off), entry mode (increment, no shift), clear display, each its own command (R100). -/
def initPlan : List PlanEvent :=
  [.delay initDelayMs]
    ++ cmdPlan cmdHome
    ++ cmdPlan (cmdFunction ||| function2Line)
    ++ cmdPlan (cmdDisplay ||| displayOn)
    ++ cmdPlan (cmdEntry ||| entryInc)
    ++ cmdPlan cmdClear

/-- `cursor(row, col)` (R151): the command plan of the cursor byte; nothing for an ignored row (R152). -/
def cursorPlan (row column : Byte) : List PlanEvent :=
  match cursorByte row column with
  | some v => cmdPlan v
  | none => []

/-- The clear plan, "exactly the command plan of the clear-display byte" (R156). -/
def clearPlan : List PlanEvent := cmdPlan cmdClear

/-- `plan(op, a, b)`: "a pure function of the latched fields" (R82); empty for a reserved opcode (R85). -/
def planOf (op : Opcode) (a b : Byte) : List PlanEvent :=
  if op = 0x1 then initPlan
  else if op = 0x2 then cmdPlan a
  else if op = 0x3 then dataPlan a
  else if op = 0x4 then cursorPlan a b
  else if op = 0x5 then clearPlan
  else []

end Sys2Proof.Machine
end

