-- ==== Sys2Proof/Machine/Ops.lean ====
section
/-! DEFINITION. The named operations over the state: the transitions of R26 (Accept, Issue, Complete, Respond), the cycle in
which none fires, and reset.

There is no taking of an exception and no return from one: "Trap entry and return: none" (R205). Registers are written only
by these operations, as the "written by" column of R22 says. -/

namespace Sys2Proof.Machine

/-- The input ports at the coming clock edge; quiet when nothing is scheduled (log 1). -/
def State.now (s : State) : Inputs := s.inputs.headD Inputs.quiet

/-- A clock edge at which no transition fires: the cycle's inputs are used up, and "in the following clock cycle `RSPV <- 0`
whatever else happens" (R30). Every transition below is an update of this state. -/
def State.tick (s : State) : State :=
  { s with regs := { s.regs with rspv := false }, inputs := s.inputs.tail }

/-- Accept (R27), of the request with fields `op`, `a`, `b`. -/
def accept (op : Opcode) (a b : Byte) (s : State) : State :=
  { s.tick with
    regs := { s.tick.regs with
      op := op, a := a, b := b, step := 0, pend := false, res := resAtAccept op a, busy := true }
    history := .accepted (ReqWord.ofFields op a b) :: s.history }

/-- The history item of an event just issued: it has no answer yet. Every write goes to `ADDR` (R51). -/
def issuedItem (addr : BusAddr) : PlanEvent → HistoryItem
  | .write data => .write addr data none
  | .delay ms => .delay ms false

/-- Issue (R28): `PEND <- 1`, and the ports present the event `e`. -/
def issue (e : PlanEvent) (s : State) : State :=
  { s.tick with
    regs := { s.tick.regs with pend := true }
    history := issuedItem s.regs.addr e :: s.history }

/-- Whether the collaborator completes the outstanding event `e` in this cycle: `bw_done` counts only for a write and
`dl_done` only for a delay (R29, R32). -/
def answered (e : PlanEvent) (i : Inputs) : Bool :=
  match e with
  | .write _ => i.bwDone
  | .delay _ => i.dlDone

/-- The transport's answer as `bw_fail` gives it (R29). -/
def answerOf (fail : Bool) : Answer := if fail then .fail else .ok

/-- The outstanding event `e`, the newest item of the history, gets its answer. -/
def answerNewest (e : PlanEvent) (fail : Bool) (items : List HistoryItem) : List HistoryItem :=
  match e, items with
  | .write _, .write addr data none :: older => .write addr data (some (answerOf fail)) :: older
  | .delay _, .delay ms false :: older => .delay ms true :: older
  | _, _ => items

/-- `RES` after the completion of `e` (R29): only a write can fail. -/
def resAfterEvent (e : PlanEvent) (res : ResultBits) (fail : Bool) : ResultBits :=
  match e with
  | .write _ => resAfterWrite res fail
  | .delay _ => res

/-- Complete (R29), of the outstanding event `e`. -/
def complete (e : PlanEvent) (s : State) : State :=
  { s.tick with
    regs := { s.tick.regs with
      res := resAfterEvent e s.regs.res s.now.bwFail, pend := false, step := s.regs.step + 1 }
    history := answerNewest e s.now.bwFail s.history }

/-- Respond (R30). -/
def respond (s : State) : State :=
  { s.tick with
    regs := { s.tick.regs with rspv := true, rspr := s.regs.res, busy := false }
    history := .respond s.regs.res :: s.history }

/-- The sequencer at one clock edge while a request with this plan is in progress (R25 to R30). A pending event completes
when its collaborator says so, and otherwise the engine waits (R29). Without a pending event the next one is issued, or,
at the end of the plan, the response is given, unless the engine idles for this cycle (`stall`, log 2). A step index past
the end enables nothing (log 9). -/
def sequencerEdge (plan : List PlanEvent) (s : State) : State :=
  match plan[s.regs.step.toNat]? with
  | some e =>
    if s.regs.pend then
      if answered e s.now then complete e s else s.tick
    else if s.now.stall then s.tick
    else issue e s
  | none =>
    if s.regs.pend then s.tick
    else if s.now.stall then s.tick
    else if s.regs.step.toNat = plan.length then respond s
    else s.tick

/-- One clock edge of the execution of the request with fields `op`, `a`, `b` and the given plan: its Accept while the engine
is idle, then, edge by edge, its events and its Respond (R26). -/
def runRequest (op : Opcode) (a b : Byte) (plan : List PlanEvent) (s : State) : Host.Outcome State Fault Refusal :=
  .next (if s.regs.busy then sequencerEdge plan s else accept op a b s)

/-- Reset at a clock edge (R230, R231): the registers take their reset values, `ADDR` from `cfg_addr`. -/
def resetEdge (s : State) : State :=
  { regs := Regs.reset s.now.cfgAddr, inputs := s.inputs.tail, history := .reset s.now.cfgAddr :: s.history }

/-- The request word held in the latches `OP`, `A`, `B`. -/
def Regs.latchedWord (r : Regs) : ReqWord := ReqWord.ofFields r.op r.a r.b

/-- The instruction that the coming clock edge runs: while busy the latched request, whatever the port says (R31, R33);
while idle the request the host presents, if it presents one (R27). -/
def State.currentInstr (s : State) : Option Instr :=
  if s.regs.busy then some (decodeRequest s.regs.latchedWord)
  else if s.now.reqValid then some (decodeRequest s.now.reqWord)
  else none

/-- The input cycle in which the host presents the request `w`. -/
def Inputs.present (w : ReqWord) : Inputs := { Inputs.quiet with reqValid := true, reqWord := w }

end Sys2Proof.Machine
end

