-- ==== Sys2Proof/Machine/CommandData.lean ====
section
/-! DEFINITION. SEND_COMMAND and SEND_DATA (41_command_data.md). -/

namespace Sys2Proof.Machine

/-- SEND_COMMAND (R130): "`plan <- cmd(A)` (rule R131)". -/
def execSendCommand (value b : Byte) (s : State) : Host.Outcome State Fault Refusal :=
  runRequest 0x2 value b (cmdPlan value) s

/-- SEND_DATA (R135): "`plan <- data(A)` (rule R136)". -/
def execSendData (value b : Byte) (s : State) : Host.Outcome State Fault Refusal :=
  runRequest 0x3 value b (dataPlan value) s

end Sys2Proof.Machine
end

