-- ==== Sys2Proof/Machine/CursorClear.lean ====
section
/-! DEFINITION. SET_CURSOR and CLEAR (42_cursor_clear.md). -/

namespace Sys2Proof.Machine

/-- SET_CURSOR (R150): "`plan <- cursor(A, B)` (rule R151)". -/
def execSetCursor (row column : Byte) (s : State) : Host.Outcome State Fault Refusal :=
  runRequest 0x4 row column (cursorPlan row column) s

/-- CLEAR (R155): "`plan <- cmd(0x01)` (rule R156)". -/
def execClear (a b : Byte) (s : State) : Host.Outcome State Fault Refusal :=
  runRequest 0x5 a b clearPlan s

end Sys2Proof.Machine
end

