-- ==== Sys2Proof/Machine/Init.lean ====
section
/-! DEFINITION. INIT (40_init.md). -/

namespace Sys2Proof.Machine

/-- INIT (R120, R121): "`plan <- plan_init` (rule R122), then the generic sequencer runs it". -/
def execInit (a b : Byte) (s : State) : Host.Outcome State Fault Refusal :=
  runRequest 0x1 a b initPlan s

end Sys2Proof.Machine
end

