-- ==== Sys2Proof/Machine/LcdCommand.lean ====
section
/-! DEFINITION. The classes of LCD command bytes (R94 to R101). Such a byte is a "byte inside a plan, not a request; sent by
SEND_COMMAND" (opcode_table.json). "The engine passes every command byte through unchanged and checks none" (R101), so what the
engine does for each of them is the request SEND_COMMAND of the byte, with the column field 0 (R106's `CMD v`, as R107
does for HOME; log 7). What the LCD makes of the byte "is the LCD's" (R94), outside the block (R6, R35). -/

namespace Sys2Proof.Machine

/-- The engine sends the LCD command byte `v`: the request `CMD v` (R106, R131). -/
def sendLcdCommand (v : Byte) (s : State) : Host.Outcome State Fault Refusal :=
  runRequest 0x2 v 0 (cmdPlan v) s

/-- LCD_NO_INSTRUCTION: the byte 0x00, which the engine "does not refuse" (R134, R101). -/
def execLcdNoInstruction (s : State) : Host.Outcome State Fault Refusal :=
  sendLcdCommand 0x00 s

/-- LCD_CLEAR_DISPLAY: 0x01 (R94). -/
def execLcdClearDisplay (s : State) : Host.Outcome State Fault Refusal :=
  sendLcdCommand lcdClearDisplayByte s

/-- LCD_RETURN_HOME: 0x02 (R95). -/
def execLcdReturnHome (x : BitVec 1) (s : State) : Host.Outcome State Fault Refusal :=
  sendLcdCommand (lcdReturnHomeByte x) s

/-- LCD_ENTRY_MODE_SET: `0x04 | ID | S` (R99). -/
def execLcdEntryModeSet (inc shift : BitVec 1) (s : State) : Host.Outcome State Fault Refusal :=
  sendLcdCommand (lcdEntryModeSetByte inc shift) s

/-- LCD_DISPLAY_CONTROL: `0x08 | D | C | B` (R98). -/
def execLcdDisplayControl (display cursor blink : BitVec 1) (s : State) : Host.Outcome State Fault Refusal :=
  sendLcdCommand (lcdDisplayControlByte display cursor blink) s

/-- LCD_CURSOR_DISPLAY_SHIFT: `0001SRxx` (R101). -/
def execLcdCursorDisplayShift (select right : BitVec 1) (x : BitVec 2) (s : State) : Host.Outcome State Fault Refusal :=
  sendLcdCommand (lcdCursorDisplayShiftByte select right x) s

/-- LCD_FUNCTION_SET: `0x20 | DL | N | F` (R97). -/
def execLcdFunctionSet (dataLength lines font : BitVec 1) (x : BitVec 2) (s : State) : Host.Outcome State Fault Refusal :=
  sendLcdCommand (lcdFunctionSetByte dataLength lines font x) s

/-- LCD_SET_CGRAM_ADDRESS: `01aaaaaa` (R101). -/
def execLcdSetCgramAddress (addr : BitVec 6) (s : State) : Host.Outcome State Fault Refusal :=
  sendLcdCommand (lcdSetCgramAddressByte addr) s

/-- LCD_SET_DDRAM_ADDRESS: `0x80 | addr` (R96). -/
def execLcdSetDdramAddress (addr : BitVec 7) (s : State) : Host.Outcome State Fault Refusal :=
  sendLcdCommand (lcdSetDdramAddressByte addr) s

end Sys2Proof.Machine
end

