-- ==== Sys2Proof/Machine/Reserved.lean ====
section
/-! DEFINITION. The eleven reserved opcodes (R85): "A reserved request is accepted like any other, has the empty plan (no bus
write, no delay), and completes with `BADOP = 1` in its result". -/

namespace Sys2Proof.Machine

/-- RESERVED_0 (R85). -/
def execReserved0 (a b : Byte) (s : State) : Host.Outcome State Fault Refusal :=
  runRequest 0x0 a b [] s

/-- RESERVED_6 (R85). -/
def execReserved6 (a b : Byte) (s : State) : Host.Outcome State Fault Refusal :=
  runRequest 0x6 a b [] s

/-- RESERVED_7 (R85). -/
def execReserved7 (a b : Byte) (s : State) : Host.Outcome State Fault Refusal :=
  runRequest 0x7 a b [] s

/-- RESERVED_8 (R85). -/
def execReserved8 (a b : Byte) (s : State) : Host.Outcome State Fault Refusal :=
  runRequest 0x8 a b [] s

/-- RESERVED_9 (R85). -/
def execReserved9 (a b : Byte) (s : State) : Host.Outcome State Fault Refusal :=
  runRequest 0x9 a b [] s

/-- RESERVED_A (R85). -/
def execReservedA (a b : Byte) (s : State) : Host.Outcome State Fault Refusal :=
  runRequest 0xA a b [] s

/-- RESERVED_B (R85). -/
def execReservedB (a b : Byte) (s : State) : Host.Outcome State Fault Refusal :=
  runRequest 0xB a b [] s

/-- RESERVED_C (R85). -/
def execReservedC (a b : Byte) (s : State) : Host.Outcome State Fault Refusal :=
  runRequest 0xC a b [] s

/-- RESERVED_D (R85). -/
def execReservedD (a b : Byte) (s : State) : Host.Outcome State Fault Refusal :=
  runRequest 0xD a b [] s

/-- RESERVED_E (R85). -/
def execReservedE (a b : Byte) (s : State) : Host.Outcome State Fault Refusal :=
  runRequest 0xE a b [] s

/-- RESERVED_F (R85). -/
def execReservedF (a b : Byte) (s : State) : Host.Outcome State Fault Refusal :=
  runRequest 0xF a b [] s

end Sys2Proof.Machine
end

