-- ==== Sys2Proof/Machine/Dispatch.lean ====
section
/-! DEFINITION. The dispatch: one arm for each constructor of `Instr`. `exec i s` is one clock edge of the execution of `i`
in `s`: its Accept while the engine is idle, then its Issues, Completes and its Respond (R26). -/

namespace Sys2Proof.Machine

def exec (i : Instr) (s : State) : Host.Outcome State Fault Refusal :=
  match i with
  | .init a b => Sys2Proof.Machine.execInit a b s
  | .sendCommand v b => Sys2Proof.Machine.execSendCommand v b s
  | .sendData v b => Sys2Proof.Machine.execSendData v b s
  | .setCursor row column => Sys2Proof.Machine.execSetCursor row column s
  | .clear a b => Sys2Proof.Machine.execClear a b s
  | .reserved0 a b => Sys2Proof.Machine.execReserved0 a b s
  | .reserved6 a b => Sys2Proof.Machine.execReserved6 a b s
  | .reserved7 a b => Sys2Proof.Machine.execReserved7 a b s
  | .reserved8 a b => Sys2Proof.Machine.execReserved8 a b s
  | .reserved9 a b => Sys2Proof.Machine.execReserved9 a b s
  | .reservedA a b => Sys2Proof.Machine.execReservedA a b s
  | .reservedB a b => Sys2Proof.Machine.execReservedB a b s
  | .reservedC a b => Sys2Proof.Machine.execReservedC a b s
  | .reservedD a b => Sys2Proof.Machine.execReservedD a b s
  | .reservedE a b => Sys2Proof.Machine.execReservedE a b s
  | .reservedF a b => Sys2Proof.Machine.execReservedF a b s
  | .lcdNoInstruction => Sys2Proof.Machine.execLcdNoInstruction s
  | .lcdClearDisplay => Sys2Proof.Machine.execLcdClearDisplay s
  | .lcdReturnHome x => Sys2Proof.Machine.execLcdReturnHome x s
  | .lcdEntryModeSet inc sh => Sys2Proof.Machine.execLcdEntryModeSet inc sh s
  | .lcdDisplayControl d c b => Sys2Proof.Machine.execLcdDisplayControl d c b s
  | .lcdCursorDisplayShift sel r x => Sys2Proof.Machine.execLcdCursorDisplayShift sel r x s
  | .lcdFunctionSet dl n f x => Sys2Proof.Machine.execLcdFunctionSet dl n f x s
  | .lcdSetCgramAddress addr => Sys2Proof.Machine.execLcdSetCgramAddress addr s
  | .lcdSetDdramAddress addr => Sys2Proof.Machine.execLcdSetDdramAddress addr s

end Sys2Proof.Machine
end

