-- ==== Sys2Proof/Machine/Step.lean ====
section
/-! DEFINITION. One step of the machine: one rising edge of `clk`. -/

namespace Sys2Proof.Machine

/-- One clock edge. Reset "takes precedence over every other transition in the same cycle" (R204, R231). Otherwise the edge
runs the current instruction: the request in progress, or the one the host presents to an idle engine (R27, R31); with
neither, nothing happens but the clearing of `RSPV` (R30). -/
def step (s : State) : Host.Outcome State Fault Refusal :=
  if s.now.rst then .next (resetEdge s)
  else
    match s.currentInstr with
    | some i => exec i s
    | none => .next s.tick

/-- `s` with the instruction whose bits are `w` presented to the engine, so that the next step accepts it: the engine is made
idle (an Accept needs `BUSY = 0`, R27) and one input cycle that presents the request is put before the others. An LCD
command byte travels in a SEND_COMMAND request (log 7). A number that is no instruction's bits presents nothing. -/
def State.withFetchWord (s : State) (nbits w : Nat) : State :=
  match Code.ofBits nbits w with
  | .ok c => { s with regs := { s.regs with busy := false }, inputs := Inputs.present c.requestWord :: s.inputs }
  | .error _ => s

end Sys2Proof.Machine
end

