-- ==== Sys2Proof/Machine/Assembly.lean ====
section
/-! DEFINITION. The assembler of R106 to R108: host-side text that becomes request words. The engine never sees it. Lexical
details the spec does not give are those of log 13. -/

namespace Sys2Proof.Machine

/-- An operand of an assembler line: a number, "decimal or `0x` hexadecimal in 0..255", or `'c'`, "the ASCII code of a
printable character" (R106). -/
inductive AsmNum where
  | num (n : Nat)
  | chr (code : Nat)
  deriving DecidableEq, Repr

/-- An assembler line (R106), the pseudo-instructions of R107 among them. -/
inductive AsmLine where
  | init
  | cmd (v : AsmNum)
  | data (v : AsmNum)
  | cursor (row column : AsmNum)
  | clear
  /-- `.req w`: "the 20-bit word `w` as written". -/
  | req (w : Nat)
  /-- `PRINT "text"`, the text as character codes. -/
  | print (codes : List Nat)
  | home
  deriving DecidableEq, Repr

/-- The operand's range (R106). -/
def AsmNum.wf : AsmNum → Bool
  | .num n => n ≤ 255
  | .chr code => 0x20 ≤ code && code ≤ 0x7E

/-- The operand's byte. -/
def AsmNum.byte : AsmNum → Byte
  | .num n => BitVec.ofNat 8 n
  | .chr code => BitVec.ofNat 8 code

/-- Whether a line is well-formed: its operands are in range (R106), and a text is made of bytes (R108). -/
def AsmLine.wf : AsmLine → Bool
  | .init => true
  | .cmd v => v.wf
  | .data v => v.wf
  | .cursor row column => row.wf && column.wf
  | .clear => true
  | .req w => w < 2 ^ 20
  | .print codes => codes.all (· ≤ 255)
  | .home => true

/-- `0x20000 | (v << 8)` (R106), on 20-bit words. -/
def wordCmd (v : Byte) : ReqWord := 0x20000 ||| (v.setWidth 20 <<< 8)

/-- `0x30000 | (v << 8)` (R106). -/
def wordData (v : Byte) : ReqWord := 0x30000 ||| (v.setWidth 20 <<< 8)

/-- `0x40000 | (r << 8) | c` (R106). -/
def wordCursor (row column : Byte) : ReqWord := 0x40000 ||| (row.setWidth 20 <<< 8) ||| column.setWidth 20

/-- The request words of a line (R106); `HOME` expands to `CMD 0x02` (R107), `PRINT` to one `DATA` for each byte of its text,
in order (R108). -/
def AsmLine.words : AsmLine → List ReqWord
  | .init => [0x10000]
  | .cmd v => [wordCmd v.byte]
  | .data v => [wordData v.byte]
  | .cursor row column => [wordCursor row.byte column.byte]
  | .clear => [0x50000]
  | .req w => [BitVec.ofNat 20 w]
  | .print codes => codes.map fun c => wordData (BitVec.ofNat 8 c)
  | .home => [wordCmd cmdHome]

/-- The words of a well-formed line. -/
def AsmLine.assemble (l : AsmLine) : Option (List ReqWord) := if l.wf then some l.words else none

/-! ### The text of a line -/

/-- The tokens of a line. -/
inductive AsmToken where
  | word (chars : List Char)
  | chr (c : Char)
  | text (chars : List Char)
  | comma
  deriving DecidableEq, Repr

/-- Where the lexer stands; gathered characters are newest first. -/
inductive LexMode where
  | start
  | inWord (gathered : List Char)
  | inText (gathered : List Char)
  /-- After an opening `'`. -/
  | openQuote
  /-- After an opening `'` and a character. -/
  | closeQuote (c : Char)
  deriving DecidableEq, Repr

/-- The tokens of a line; "`;` starts a comment" (R106). The spec does not say what a `;` between the
quotes of `'c'` or of `PRINT`'s text is: the model reads it there as a character like any other (DESIGN CHOICE, log 13).
So are a space, a tab and a comma there, and a quote inside a word; an unclosed quote gives `none` (log 13). -/
def lexLine : LexMode → List Char → Option (List AsmToken)
  | .start, [] => some []
  | .start, c :: cs =>
    if c = ';' then some []
    else if c = ' ' ∨ c = '\t' then lexLine .start cs
    else if c = ',' then (lexLine .start cs).map (.comma :: ·)
    else if c = '"' then lexLine (.inText []) cs
    else if c = '\'' then lexLine .openQuote cs
    else lexLine (.inWord [c]) cs
  | .inWord g, [] => some [.word g.reverse]
  | .inWord g, c :: cs =>
    if c = ';' then some [.word g.reverse]
    else if c = ' ' ∨ c = '\t' then (lexLine .start cs).map (.word g.reverse :: ·)
    else if c = ',' then (lexLine .start cs).map fun ts => .word g.reverse :: .comma :: ts
    else lexLine (.inWord (c :: g)) cs
  | .inText _, [] => none
  | .inText g, c :: cs =>
    if c = '"' then (lexLine .start cs).map (.text g.reverse :: ·) else lexLine (.inText (c :: g)) cs
  | .openQuote, [] => none
  | .openQuote, c :: cs => lexLine (.closeQuote c) cs
  | .closeQuote _, [] => none
  | .closeQuote x, c :: cs => if c = '\'' then (lexLine .start cs).map (.chr x :: ·) else none

/-- The value of a digit. -/
def digitValue (c : Char) : Option Nat :=
  if '0' ≤ c ∧ c ≤ '9' then some (c.toNat - '0'.toNat)
  else if 'a' ≤ c ∧ c ≤ 'f' then some (c.toNat - 'a'.toNat + 10)
  else if 'A' ≤ c ∧ c ≤ 'F' then some (c.toNat - 'A'.toNat + 10)
  else none

/-- The value of a string of digits in a base, read after `value`. -/
def digitsFrom (base : Nat) : Nat → List Char → Option Nat
  | value, [] => some value
  | value, c :: cs =>
    match digitValue c with
    | some d => if d < base then digitsFrom base (value * base + d) cs else none
    | none => none

/-- A number: "decimal or `0x` hexadecimal" (R106). -/
def parseNat : List Char → Option Nat
  | [] => none
  | '0' :: 'x' :: [] => none
  | '0' :: 'x' :: digits => digitsFrom 16 0 digits
  | digits => digitsFrom 10 0 digits

/-- An operand of a line. -/
def parseNum : AsmToken → Option AsmNum
  | .word cs => (parseNat cs).map .num
  | .chr c => some (.chr c.toNat)
  | .text _ => none
  | .comma => none

/-- A statement whose mnemonic has no operand. -/
def parseBare (m : List Char) : Option AsmLine :=
  if m = ['I', 'N', 'I', 'T'] then some .init
  else if m = ['C', 'L', 'E', 'A', 'R'] then some .clear
  else if m = ['H', 'O', 'M', 'E'] then some .home
  else none

/-- A statement with one operand. -/
def parseOne (m : List Char) (t : AsmToken) : Option AsmLine :=
  if m = ['C', 'M', 'D'] then (parseNum t).map .cmd
  else if m = ['D', 'A', 'T', 'A'] then (parseNum t).map .data
  else if m = ['.', 'r', 'e', 'q'] then
    match t with
    | .word cs => (parseNat cs).map .req
    | _ => none
  else if m = ['P', 'R', 'I', 'N', 'T'] then
    match t with
    | .text cs => some (.print (cs.map Char.toNat))
    | _ => none
  else none

/-- The statement of a line's tokens: none on an empty line, at most one request or pseudo-instruction (R106). -/
def parseTokens : List AsmToken → Option (Option AsmLine)
  | [] => some none
  | [.word m] => (parseBare m).map some
  | [.word m, t] => (parseOne m t).map some
  | [.word m, r, .comma, c] =>
    if m = ['C', 'U', 'R', 'S', 'O', 'R'] then
      match parseNum r, parseNum c with
      | some row, some column => some (some (.cursor row column))
      | _, _ => none
    else none
  | _ => none

/-- The request words of a line of text; `none` where it is no line of R106 or R107. -/
def assembleLine (chars : List Char) : Option (List ReqWord) :=
  match (lexLine .start chars).bind parseTokens with
  | some (some l) => l.assemble
  | some none => some []
  | none => none

/-- The request words of a text, "one request per line" (R106), in order. -/
def assembleText : List (List Char) → Option (List ReqWord)
  | [] => some []
  | l :: ls =>
    match assembleLine l, assembleText ls with
    | some ws, some rest => some (ws ++ rest)
    | _, _ => none

end Sys2Proof.Machine
end

