-- ==== Sys2Proof/Machine/FrameDecoder.lean ====
section
/-! DEFINITION. The frame decoder of R176: "the observation a model uses to read the LCD's view from a trace (not engine
logic)" (D33). The pairing of nibbles and the dropping of failed writes are the spec's general knowledge (K9; log 11).
Nothing in the engine depends on it. -/

namespace Sys2Proof.Machine

/-- The byte of a write to the bridge `addr` that the transport answered `ok`. -/
def okWrite (addr : BusAddr) : HistoryItem → Option Byte
  | .reset _ => none
  | .accepted _ => none
  | .write a data (some .ok) => if a = addr then some data else none
  | .write _ _ (some .fail) => none
  | .write _ _ none => none
  | .delay _ _ => none
  | .respond _ => none

/-- "The subsequence of write events whose transport answer was `ok`" (R176), in order of time (the history is newest
first). -/
def okWrites (addr : BusAddr) (history : List HistoryItem) : List Byte := (history.filterMap (okWrite addr)).reverse

/-- One latched nibble, `(w[7:4], w & RS)`. -/
structure LatchedNibble where
  nibble : Nibble
  register : RegSelect
  deriving DecidableEq, Repr

/-- A byte the LCD received, and the register it went to. -/
structure LcdByte where
  value : Byte
  register : RegSelect
  deriving DecidableEq, Repr

/-- The register select of a frame byte. -/
def registerOf (w : Byte) : RegSelect := if w &&& maskRS = 0 then .command else .data

/-- The nibbles latched by a sequence of writes (R176): one at each write with `EN` = 0 that immediately follows a write with
`EN` = 1 ("the controller latches data on the enable falling edge", R173). -/
def latchedNibbles : List Byte → List LatchedNibble
  | [] => []
  | [_] => []
  | w1 :: w2 :: rest =>
    if w1 &&& maskEN = maskEN ∧ w2 &&& maskEN = 0 then
      { nibble := w2.extractLsb' 4 4, register := registerOf w2 } :: latchedNibbles (w2 :: rest)
    else latchedNibbles (w2 :: rest)

/-- Nibbles paired "first with second, third with fourth, and so on"; a pair with equal register selects reads as the byte
`(n1 << 4) | n2` (R176), a pair with different ones as none (log 11). -/
def pairNibbles : List LatchedNibble → List LcdByte
  | [] => []
  | [_] => []
  | n1 :: n2 :: rest =>
    if n1.register = n2.register then
      { value := n1.nibble ++ n2.nibble, register := n1.register } :: pairNibbles rest
    else pairNibbles rest

/-- The bytes the LCD received from a sequence of successful writes, pairing from the first nibble on (R176). -/
def lcdBytes (writes : List Byte) : List LcdByte := pairNibbles (latchedNibbles writes)

/-- The LCD's view of a history (R35, R176). -/
def lcdView (addr : BusAddr) (history : List HistoryItem) : List LcdByte := lcdBytes (okWrites addr history)

/-- The reading of a command byte as an LCD instruction (R101; log 8); a data byte is a character (R34). -/
def LcdByte.instr (v : LcdByte) : Option Instr :=
  match v.register with
  | .command => some (decodeLcdCommand v.value)
  | .data => none

end Sys2Proof.Machine
end

