-- ==== Sys2Proof/Machine/Outputs.lean ====
section
/-! DEFINITION. The output ports of R32: "functions of the registers only", with `e = plan(OP, A, B)[STEP]`. -/

namespace Sys2Proof.Machine

/-- The output ports of R32. -/
structure Outputs where
  reqReady : Bool
  bwValid : Bool
  bwAddr : BusAddr
  bwData : Byte
  bwHold : Bool
  dlValid : Bool
  dlMs : Byte
  rspValid : Bool
  rspResult : ResultBits
  deriving DecidableEq, Repr

/-- `e = plan(OP, A, B)[STEP]` (R32); `none` past the end of the plan (log 9). -/
def currentEvent (r : Regs) : Option PlanEvent := (planOf r.op r.a r.b)[r.step.toNat]?

/-- `bw_data`: `b` when `e = W(b)`, else 0 (R32). -/
def writeData : Option PlanEvent → Byte
  | some (.write b) => b
  | some (.delay _) => 0
  | none => 0

/-- `dl_ms`: `ms` when `e = D(ms)`, else 0 (R32). -/
def delayMs : Option PlanEvent → Byte
  | some (.write _) => 0
  | some (.delay ms) => ms
  | none => 0

/-- `e is W` (R32). -/
def isWrite : Option PlanEvent → Bool
  | some (.write _) => true
  | some (.delay _) => false
  | none => false

/-- `e is D` (R32). -/
def isDelay : Option PlanEvent → Bool
  | some (.write _) => false
  | some (.delay _) => true
  | none => false

/-- The output ports in a state (R32). -/
def outputs (r : Regs) : Outputs :=
  { reqReady := !r.busy
    bwValid := r.busy && r.pend && isWrite (currentEvent r)
    bwAddr := r.addr
    bwData := writeData (currentEvent r)
    bwHold := true
    dlValid := r.busy && r.pend && isDelay (currentEvent r)
    dlMs := delayMs (currentEvent r)
    rspValid := r.rspv
    rspResult := r.rspr }

end Sys2Proof.Machine
end

