-- ==== Sys2Proof/Safety.lean ====
section
/-! DEFINITION. What counts as a safe run, in the terms the statements use: the register invariant, the conformance of the
history to the plans, and the schedules of a cooperating environment. -/

namespace Sys2Proof.Machine

/-! ### The registers -/

/-- A result value that can occur: 0b000, 0b001, 0b010 or 0b100 (R202). -/
abbrev LegalResult (r : ResultBits) : Prop := r = 0b000 ∨ r = 0b001 ∨ r = 0b010 ∨ r = 0b100

/-- The result of the request with fields `op`, `a` of which some write failed, or none did (R203). -/
def resultOf (op : Opcode) (a : Byte) (failed : Bool) : ResultBits :=
  resultBits (opIsReserved op) (rowIsIgnored op a) failed

/-- The plan of the latched request. -/
def Regs.plan (r : Regs) : List PlanEvent := planOf r.op r.a r.b

/-- The `BUSFAIL` bit of `RES` (R24). -/
def Regs.busFailed (r : Regs) : Bool := r.res.getLsbD 0

/-- What the registers satisfy in every state of a run: no event is pending while idle (R36); while busy, `STEP` is at most
the plan's length and below it while an event is pending (R25), `RSPV` is 0 (R30), `RES` is what Accept loaded with
`BUSFAIL` added only if the plan has a write to fail (R24, R204); `RES` and `RSPR` hold values that can occur (R202). -/
abbrev Regs.Inv (r : Regs) : Prop :=
  (r.busy = false → r.pend = false)
    ∧ (r.busy = true → r.step.toNat ≤ r.plan.length)
    ∧ (r.pend = true → r.step.toNat < r.plan.length)
    ∧ (r.busy = true → r.rspv = false)
    ∧ (r.busy = true → r.res = resultOf r.op r.a r.busFailed)
    ∧ (r.busy = true → r.busFailed = true → r.plan ≠ [])
    ∧ LegalResult r.res
    ∧ LegalResult r.rspr

/-! ### The history -/

/-- Where a history stands: idle, or inside a request with `done` of its events completed. -/
inductive Phase where
  | idle (addr : BusAddr)
  | running (addr : BusAddr) (word : ReqWord) (done : Nat) (pending failed : Bool)
  deriving DecidableEq, Repr

/-- The plan of a request word (R82). -/
def planOfWord (w : ReqWord) : List PlanEvent := planOf w.opcode w.argA w.argB

/-- The result of a request word (R203). -/
def resultOfWord (w : ReqWord) (failed : Bool) : ResultBits := resultOf w.opcode w.argA failed

/-- The phase after one more history item, or `none` if the item may not stand there. A request starts only when the engine is
idle (R31); its events are those of its plan, in order, each to the address `ADDR`, and one is issued only after the one
before it has completed (R50, R51, R61); it ends with its result, after the last event (R203). -/
def Phase.advance (item : HistoryItem) (p : Phase) : Option Phase :=
  match item, p with
  | .reset addr, _ => some (.idle addr)
  | .accepted w, .idle addr => some (.running addr w 0 false false)
  | .write a data answer, .running addr w k false failed =>
    if (planOfWord w)[k]? = some (.write data) ∧ a = addr then
      match answer with
      | none => some (.running addr w k true failed)
      | some .ok => some (.running addr w (k + 1) false failed)
      | some .fail => some (.running addr w (k + 1) false true)
    else none
  | .delay ms completed, .running addr w k false failed =>
    if (planOfWord w)[k]? = some (.delay ms) then
      match completed with
      | false => some (.running addr w k true failed)
      | true => some (.running addr w (k + 1) false failed)
    else none
  | .respond r, .running addr w k false failed =>
    if k = (planOfWord w).length ∧ r = resultOfWord w failed then some (.idle addr) else none
  | _, _ => none

/-- The phase at the end of a history (newest item first) that began in `start`; `none` if it does not conform. -/
def replay (start : Phase) : List HistoryItem → Option Phase
  | [] => some start
  | item :: older => (replay start older).bind (Phase.advance item)

/-- The phase that the registers show. -/
def Regs.phase (r : Regs) : Phase :=
  if r.busy then .running r.addr r.latchedWord r.step.toNat r.pend r.busFailed else .idle r.addr

/-- The history conforms: from an idle engine with some address it leads, item by item, to what the registers show. -/
def State.Conforms (s : State) : Prop := ∃ addr, replay (.idle addr) s.history = some s.regs.phase

/-- A safe state: the registers are as the rules say and the history is one the rules allow. -/
def State.Safe (s : State) : Prop := s.regs.Inv ∧ s.Conforms

/-- A byte the engine may write: backlight set, `RW` clear, the nibble in bits 7..4, and of the low bits only `EN` and `RS`
free (R90, R91). -/
abbrev LegalFrameByte (w : Byte) : Prop := w &&& (maskBL ||| maskRW) = maskBL

/-- What an item may hold: a write's byte is a frame byte (R91), a delay is 15 or 2 ms (R83), a result can occur (R202). -/
def LegalItem : HistoryItem → Prop
  | .reset _ => True
  | .accepted _ => True
  | .write _ data _ => LegalFrameByte data
  | .delay ms _ => ms = 15 ∨ ms = 2
  | .respond r => LegalResult r

/-! ### Running a request to its end -/

/-- The input cycles of one event of a plan: the engine's idle cycles (log 2), its Issue, the collaborator's waiting, and the
cycle in which the collaborator completes the event. -/
structure Completion where
  idle : List Inputs
  issue : Inputs
  waiting : List Inputs
  done : Inputs
  deriving DecidableEq, Repr

/-- The cycles are such for the event `e`. Nothing else is asked of them: in each of them the host may hold a request (R31),
`cfg_addr` may have any value (R23), and the other collaborator's answers are ignored (R32). -/
abbrev Completion.Serves (e : PlanEvent) (c : Completion) : Prop :=
  (∀ i ∈ c.idle, i.rst = false ∧ i.stall = true)
    ∧ c.issue.rst = false ∧ c.issue.stall = false
    ∧ (∀ i ∈ c.waiting, i.rst = false ∧ answered e i = false)
    ∧ c.done.rst = false ∧ answered e c.done = true

/-- The cycles of one event, in order. -/
def Completion.cycles (c : Completion) : List Inputs := c.idle ++ [c.issue] ++ c.waiting ++ [c.done]

/-- The input cycles of one request: its Accept, those of its events, the engine's idle cycles before its Respond, and its
Respond. -/
structure Schedule where
  accept : Inputs
  events : List Completion
  idle : List Inputs
  respond : Inputs
  deriving DecidableEq, Repr

/-- The cycles are such for the request `w`: it is presented, each event of its plan is served, and no reset comes. -/
abbrev Schedule.Serves (w : ReqWord) (c : Schedule) : Prop :=
  c.accept.rst = false ∧ c.accept.reqValid = true ∧ c.accept.reqWord = w
    ∧ List.Forall₂ Completion.Serves (planOfWord w) c.events
    ∧ (∀ i ∈ c.idle, i.rst = false ∧ i.stall = true)
    ∧ c.respond.rst = false ∧ c.respond.stall = false

/-- The cycles of one request, in order. -/
def Schedule.cycles (c : Schedule) : List Inputs :=
  [c.accept] ++ c.events.flatMap Completion.cycles ++ c.idle ++ [c.respond]

/-- `bw_fail` at the completion of each event, in order. -/
def Schedule.fails (c : Schedule) : List Bool := c.events.map fun e => e.done.bwFail

/-- The history item of an event that was completed. -/
def completedItem (addr : BusAddr) (e : PlanEvent) (fail : Bool) : HistoryItem :=
  match e with
  | .write data => .write addr data (some (answerOf fail))
  | .delay ms => .delay ms true

/-- The items of a plan's events, each completed with its `bw_fail`, in order. -/
def completedItems (addr : BusAddr) (plan : List PlanEvent) (fails : List Bool) : List HistoryItem :=
  List.zipWith (completedItem addr) plan fails

/-- Whether an event completed with this `bw_fail` is a failed write (R203): a delay cannot fail (R29). -/
def failedWrite (e : PlanEvent) (fail : Bool) : Bool :=
  match e with
  | .write _ => fail
  | .delay _ => false

/-- "OR over the writes W of plan(q) of (transport answer of W == fail)" (R203). -/
def anyWriteFailed (plan : List PlanEvent) (fails : List Bool) : Bool := (List.zipWith failedWrite plan fails).any id

/-- The state in which a request that ran to its end leaves the engine (R27 to R30, R203). -/
def afterRequest (w : ReqWord) (fails : List Bool) (rest : List Inputs) (s : State) : State :=
  { regs :=
      { addr := s.regs.addr, busy := false, op := w.opcode, a := w.argA, b := w.argB,
        step := BitVec.ofNat 5 (planOfWord w).length, pend := false,
        res := resultOfWord w (anyWriteFailed (planOfWord w) fails), rspv := true,
        rspr := resultOfWord w (anyWriteFailed (planOfWord w) fails) }
    inputs := rest
    history :=
      .respond (resultOfWord w (anyWriteFailed (planOfWord w) fails))
        :: ((completedItems s.regs.addr (planOfWord w) fails).reverse ++ (.accepted w :: s.history)) }

/-! ### The effect of one instruction, edge by edge -/

/-- The instruction `i` runs the request with fields `op`, `a`, `b`: it is accepted with `RES = res` (R27), its plan is `plan`,
each event of which is issued (R28), waited for and completed (R29), and at the end of the plan it responds (R30). Every
clause gives the whole next state, so it also says what stays. Issue and Respond are those of a cycle in which the engine
does not idle; Accept and Complete are never delayed (log 2). -/
structure RunsRequest (i : Instr) (op : Opcode) (a b : Byte) (res : ResultBits) (plan : List PlanEvent) : Prop where
  /-- Accept (R27). -/
  accepts : ∀ s : State, s.regs.busy = false →
    exec i s = .next
      { regs := { addr := s.regs.addr, busy := true, op := op, a := a, b := b, step := 0, pend := false, res := res,
                  rspv := false, rspr := s.regs.rspr }
        inputs := s.inputs.tail
        history := .accepted (op ++ a ++ b) :: s.history }
  /-- Issue of a write (R28): the byte goes to `ADDR`. -/
  issuesWrite : ∀ (s : State) (data : Byte), s.regs.busy = true → s.regs.pend = false → s.now.stall = false →
    plan[s.regs.step.toNat]? = some (.write data) →
    exec i s = .next
      { regs := { s.regs with pend := true, rspv := false }
        inputs := s.inputs.tail
        history := .write s.regs.addr data none :: s.history }
  /-- Issue of a delay (R28). -/
  issuesDelay : ∀ (s : State) (ms : Byte), s.regs.busy = true → s.regs.pend = false → s.now.stall = false →
    plan[s.regs.step.toNat]? = some (.delay ms) →
    exec i s = .next
      { regs := { s.regs with pend := true, rspv := false }
        inputs := s.inputs.tail
        history := .delay ms false :: s.history }
  /-- Complete of a write the transport answers `ok` (R29). -/
  completesWrite : ∀ (s : State) (data : Byte) (older : List HistoryItem), s.regs.busy = true → s.regs.pend = true →
    plan[s.regs.step.toNat]? = some (.write data) → s.history = .write s.regs.addr data none :: older →
    s.now.bwDone = true → s.now.bwFail = false →
    exec i s = .next
      { regs := { s.regs with pend := false, step := s.regs.step + 1, rspv := false }
        inputs := s.inputs.tail
        history := .write s.regs.addr data (some .ok) :: older }
  /-- Complete of a write the transport answers `fail` (R29): only `BUSFAIL` is different. -/
  completesFailedWrite : ∀ (s : State) (data : Byte) (older : List HistoryItem), s.regs.busy = true →
    s.regs.pend = true → plan[s.regs.step.toNat]? = some (.write data) →
    s.history = .write s.regs.addr data none :: older → s.now.bwDone = true → s.now.bwFail = true →
    exec i s = .next
      { regs := { s.regs with pend := false, step := s.regs.step + 1, res := s.regs.res ||| 0b001, rspv := false }
        inputs := s.inputs.tail
        history := .write s.regs.addr data (some .fail) :: older }
  /-- Complete of a delay (R29). -/
  completesDelay : ∀ (s : State) (ms : Byte) (older : List HistoryItem), s.regs.busy = true → s.regs.pend = true →
    plan[s.regs.step.toNat]? = some (.delay ms) → s.history = .delay ms false :: older → s.now.dlDone = true →
    exec i s = .next
      { regs := { s.regs with pend := false, step := s.regs.step + 1, rspv := false }
        inputs := s.inputs.tail
        history := .delay ms true :: older }
  /-- Respond (R30). -/
  responds : ∀ s : State, s.regs.busy = true → s.regs.pend = false → s.now.stall = false →
    s.regs.step.toNat = plan.length →
    exec i s = .next
      { regs := { s.regs with busy := false, rspv := true, rspr := s.regs.res }
        inputs := s.inputs.tail
        history := .respond s.regs.res :: s.history }

/-! ### What the transport's answers can change -/

/-- A history item without the transport's answer: a failed write becomes an answered one, and the `BUSFAIL` bit of a
response is cleared. -/
def HistoryItem.eraseFailure : HistoryItem → HistoryItem
  | .reset addr => .reset addr
  | .accepted w => .accepted w
  | .write addr data none => .write addr data none
  | .write addr data (some _) => .write addr data (some .ok)
  | .delay ms completed => .delay ms completed
  | .respond r => .respond (r &&& 0b110)

/-- A state without the transport's answers: those given (in the history and the `BUSFAIL` bits) and those to come. -/
def State.eraseFailures (s : State) : State :=
  { regs := { s.regs with res := s.regs.res &&& 0b110, rspr := s.regs.rspr &&& 0b110 }
    inputs := s.inputs.map fun i => { i with bwFail := false }
    history := s.history.map HistoryItem.eraseFailure }

/-! ### What a request delivers -/

/-- The bytes a plan writes, in order. -/
def writesOf (plan : List PlanEvent) : List Byte :=
  plan.filterMap fun e =>
    match e with
    | .write data => some data
    | .delay _ => none

/-- The bytes the LCD is sent by a request, and the register each goes to (R122, R131, R136, R151, R156). -/
def bytesSent (i : Instr) : List LcdByte :=
  match i with
  | .init _ _ => [0x02, 0x28, 0x0C, 0x06, 0x01].map fun v => ⟨v, .command⟩
  | .sendCommand v _ => [⟨v, .command⟩]
  | .sendData v _ => [⟨v, .data⟩]
  | .setCursor row column =>
      if row = 0 then [⟨0x80 + column, .command⟩] else if row = 1 then [⟨0xC0 + column, .command⟩] else []
  | .clear _ _ => [⟨0x01, .command⟩]
  | .reserved0 _ _ => []
  | .reserved6 _ _ => []
  | .reserved7 _ _ => []
  | .reserved8 _ _ => []
  | .reserved9 _ _ => []
  | .reservedA _ _ => []
  | .reservedB _ _ => []
  | .reservedC _ _ => []
  | .reservedD _ _ => []
  | .reservedE _ _ => []
  | .reservedF _ _ => []
  | .lcdNoInstruction => [⟨0x00, .command⟩]
  | .lcdClearDisplay => [⟨lcdClearDisplayByte, .command⟩]
  | .lcdReturnHome x => [⟨lcdReturnHomeByte x, .command⟩]
  | .lcdEntryModeSet i sh => [⟨lcdEntryModeSetByte i sh, .command⟩]
  | .lcdDisplayControl d c b => [⟨lcdDisplayControlByte d c b, .command⟩]
  | .lcdCursorDisplayShift sel r x => [⟨lcdCursorDisplayShiftByte sel r x, .command⟩]
  | .lcdFunctionSet dl n f x => [⟨lcdFunctionSetByte dl n f x, .command⟩]
  | .lcdSetCgramAddress addr => [⟨lcdSetCgramAddressByte addr, .command⟩]
  | .lcdSetDdramAddress addr => [⟨lcdSetDdramAddressByte addr, .command⟩]

end Sys2Proof.Machine
end

