-- ==== Sys2Proof/Certificates/Slice0/Obligations.lean ====
section
/-! DEFINITION. The statements for the provers, in the order of OBLIGATIONS.json. Numbers are written out where the spec
writes them out, so that a statement does not rest on the model's own constants. -/

open Sys2Proof Sys2Proof.Machine

/-! ### Encoding -/

/-- Words of 95_test_vectors.md 2.0, bit by bit, and two LCD command bytes, of the INIT and SET_CURSOR examples, by the
patterns of opcode_table.json (30_encoding.md section 4; general knowledge of the spec, log 8). -/
def Obligations.KnownWordsDecode : Prop :=
  decodeRequest 0b0001_0000_0000_0000_0000#20 = .init 0x00 0x00
    ∧ decodeRequest 0b0010_1010_0101_1100_0011#20 = .sendCommand 0xA5 0xC3
    ∧ decodeRequest 0b0011_0100_0001_0000_0000#20 = .sendData 0x41 0x00
    ∧ decodeRequest 0b0100_0000_0001_0000_0101#20 = .setCursor 0x01 0x05
    ∧ decodeRequest 0b0101_1010_1011_1100_1101#20 = .clear 0xAB 0xCD
    ∧ decodeRequest 0b0000_0000_0000_0000_0000#20 = .reserved0 0x00 0x00
    ∧ decodeRequest 0b1111_1111_1111_1111_1111#20 = .reservedF 0xFF 0xFF
    ∧ decodeLcdCommand 0b00101000#8 = .lcdFunctionSet 0 1 0 0
    ∧ decodeLcdCommand 0b11000101#8 = .lcdSetDdramAddress 0b1000101#7

/-- Decoding gives back every encoded instruction, with every operand at every value. -/
def Obligations.DecodeOfEncodeGivesBackTheInstruction : Prop := ∀ i : Instr, decode (encode i) = i

/-- Every word, request or command byte, is the encoding of what it decodes to: no word is refused and no bit is lost. -/
def Obligations.EncodeOfDecodeGivesBackTheWord : Prop := ∀ c : Code, encode (decode c) = c

/-- R86: the request is selected by bits 19..16 and nothing else: two words decode to the same opcode exactly when those bits
agree, and then to the same row; whatever the request, its operands are bits 15..8 and 7..0 as they stand. -/
def Obligations.OpcodeBitsAloneSelectTheRequest : Prop :=
  (∀ w w' : BitVec 20, (decodeRequest w).opcode = (decodeRequest w').opcode ↔ w.extractLsb' 16 4 = w'.extractLsb' 16 4)
    ∧ (∀ w w' : BitVec 20, w.extractLsb' 16 4 = w'.extractLsb' 16 4 →
        (decodeRequest w).tableRow = (decodeRequest w').tableRow)
    ∧ ∀ w : BitVec 20,
        decodeRequest w ∈
          [Instr.init, .sendCommand, .sendData, .setCursor, .clear, .reserved0, .reserved6, .reserved7, .reserved8,
            .reserved9, .reservedA, .reservedB, .reservedC, .reservedD, .reservedE, .reservedF].map
            fun request => request (w.extractLsb' 8 8) (w.extractLsb' 0 8)

/-- The class of a command byte is that of its highest set bit (R101; general knowledge of the spec, log 8): the decoded
instruction's table row. -/
def Obligations.HighestSetBitSelectsTheLcdClass : Prop :=
  ∀ v : BitVec 8,
    (decodeLcdCommand v).tableRow =
      if v.getLsbD 7 then (0x80, 0x80)
      else if v.getLsbD 6 then (0x40, 0xC0)
      else if v.getLsbD 5 then (0x20, 0xE0)
      else if v.getLsbD 4 then (0x10, 0xF0)
      else if v.getLsbD 3 then (0x08, 0xF8)
      else if v.getLsbD 2 then (0x04, 0xFC)
      else if v.getLsbD 1 then (0x02, 0xFE)
      else if v.getLsbD 0 then (0x01, 0xFF)
      else (0x00, 0xFF)

/-- The words of the assembler's table (R106), of `HOME` (R107) and of `PRINT "AB"` (R108). -/
def Obligations.AssemblerWordsAreTheTables : Prop :=
  AsmLine.init.assemble = some [0x10000#20]
    ∧ (AsmLine.cmd (.num 0x28)).assemble = some [0x22800#20]
    ∧ (AsmLine.data (.chr 0x41)).assemble = some [0x34100#20]
    ∧ (AsmLine.cursor (.num 1) (.num 5)).assemble = some [0x40105#20]
    ∧ AsmLine.clear.assemble = some [0x50000#20]
    ∧ (AsmLine.req 0x6ABCD).assemble = some [0x6ABCD#20]
    ∧ AsmLine.home.assemble = some [0x20200#20]
    ∧ (AsmLine.print [0x41, 0x42]).assemble = some [0x34100#20, 0x34200#20]

/-- What the assembler's words decode to (R106, R107, R108), for every well-formed line: each line of one request to the
request its syntax names, with its operands and every unused field 0 (R81); `PRINT` to one SEND_DATA for each byte of its
text, in order; `.req` to the word as written. A number's byte is the number, a character's its code. -/
def Obligations.AssembledWordsDecodeToTheirRequests : Prop :=
  (∀ k : Nat, k ≤ 255 → (AsmNum.num k).wf = true ∧ (AsmNum.num k).byte.toNat = k)
    ∧ (∀ k : Nat, 0x20 ≤ k → k ≤ 0x7E → (AsmNum.chr k).wf = true ∧ (AsmNum.chr k).byte.toNat = k)
    ∧ (∀ n : AsmNum, n.wf = true →
        ∃ w, (AsmLine.cmd n).assemble = some [w] ∧ decodeRequest w = .sendCommand n.byte 0)
    ∧ (∀ n : AsmNum, n.wf = true →
        ∃ w, (AsmLine.data n).assemble = some [w] ∧ decodeRequest w = .sendData n.byte 0)
    ∧ (∀ row column : AsmNum, row.wf = true → column.wf = true →
        ∃ w, (AsmLine.cursor row column).assemble = some [w] ∧ decodeRequest w = .setCursor row.byte column.byte)
    ∧ (∃ w, AsmLine.init.assemble = some [w] ∧ decodeRequest w = .init 0 0)
    ∧ (∃ w, AsmLine.clear.assemble = some [w] ∧ decodeRequest w = .clear 0 0)
    ∧ (∃ w, AsmLine.home.assemble = some [w] ∧ decodeRequest w = .sendCommand 0x02 0)
    ∧ (∀ w : BitVec 20, (AsmLine.req w.toNat).assemble = some [w])
    ∧ (∀ codes : List Nat, (∀ c ∈ codes, c ≤ 255) →
        ∃ ws, (AsmLine.print codes).assemble = some ws
          ∧ ws.map decodeRequest = codes.map fun c => .sendData (BitVec.ofNat 8 c) 0)
    ∧ ∀ (l : AsmLine) (ws : List ReqWord), l.assemble = some ws → (∀ w, l ≠ .req w) →
        ∀ w ∈ ws, (decodeRequest w).canonical = true

/-! ### Reset -/

/-- R22, R230: the registers at `State.reset`. `ADDR` is the open parameter (log 4); that nothing is scheduled and nothing
recorded is the model's choice (logs 1 and 3) and no part of the statement. -/
def Obligations.ResetStateHasTheResetValues : Prop :=
  State.reset.regs.addr = Config.bridgeAddr ∧ State.reset.regs.busy = false ∧ State.reset.regs.op = 0
    ∧ State.reset.regs.a = 0 ∧ State.reset.regs.b = 0 ∧ State.reset.regs.step = 0 ∧ State.reset.regs.pend = false
    ∧ State.reset.regs.res = 0 ∧ State.reset.regs.rspv = false ∧ State.reset.regs.rspr = 0

/-- R230: `rst = 1` at an edge gives every register its reset value, and what the ports show then; R231: whatever the state
was, busy or not, the history gets no further event and no response. (`bw_data` and `dl_ms` are
`PortsPresentOneEventAtMost`'s.) -/
def Obligations.ResetEdgeGivesResetValues : Prop :=
  ∀ s : State, s.now.rst = true →
    ∃ t, step s = .next t
      ∧ t.regs = { addr := s.now.cfgAddr, busy := false, op := 0, a := 0, b := 0, step := 0, pend := false, res := 0,
                   rspv := false, rspr := 0 }
      ∧ t.history = .reset s.now.cfgAddr :: s.history
      ∧ t.inputs = s.inputs.tail
      ∧ (outputs t.regs).reqReady = true ∧ (outputs t.regs).bwValid = false ∧ (outputs t.regs).bwAddr = s.now.cfgAddr
      ∧ (outputs t.regs).bwHold = true ∧ (outputs t.regs).dlValid = false ∧ (outputs t.regs).rspValid = false
      ∧ (outputs t.regs).rspResult = 0

/-- R232: over any number of edges with no request, an engine that was just reset is idle in its reset values and has issued
nothing (first clause); and any idle engine issues nothing: no register changes but `RSPV`, which is 0 after the first
edge, and the history stays as it was (second clause). -/
def Obligations.IdleEngineIssuesNothing : Prop :=
  (∀ (k : Nat) (s : State), s.now.rst = true → (∀ i ∈ s.inputs.tail, i.rst = false ∧ i.reqValid = false) →
    ∃ t, Host.Core.run Sys2Proof.core (k + 1) s = .next t ∧ t.regs = Regs.reset s.now.cfgAddr ∧ t.regs.busy = false
      ∧ t.history = .reset s.now.cfgAddr :: s.history)
    ∧ ∀ (k : Nat) (s : State), s.regs.busy = false → (∀ i ∈ s.inputs, i.rst = false ∧ i.reqValid = false) →
        ∃ t, Host.Core.run Sys2Proof.core (k + 1) s = .next t ∧ t.regs = { s.regs with rspv := false }
          ∧ t.history = s.history

/-- R23: `ADDR` changes at a reset edge only, to `cfg_addr`; without reset, `cfg_addr` has no effect; every write that a step
adds to the history carries `ADDR`. -/
def Obligations.AddressChangesOnlyAtReset : Prop :=
  (∀ s t : State, step s = .next t → t.regs.addr = if s.now.rst then s.now.cfgAddr else s.regs.addr)
    ∧ (∀ (s : State) (i : Inputs) (rest : List Inputs) (c : BusAddr), s.inputs = i :: rest → i.rst = false →
        step { s with inputs := { i with cfgAddr := c } :: rest } = step s)
    ∧ ∀ (s t : State) (addr : BusAddr) (data : Byte), step s = .next t →
        t.history = .write addr data none :: s.history → addr = s.regs.addr

/-! ### The transitions -/

/-- A step without reset runs exactly the current instruction: the latched request while busy, the presented one while idle;
with neither, only `RSPV` is cleared and the cycle's inputs are used up. -/
def Obligations.StepRunsTheCurrentInstruction : Prop :=
  ∀ s : State, s.now.rst = false →
    (s.regs.busy = true → step s = exec (decodeRequest (s.regs.op ++ s.regs.a ++ s.regs.b)) s)
      ∧ (s.regs.busy = false → s.now.reqValid = true → step s = exec (decodeRequest s.now.reqWord) s)
      ∧ (s.regs.busy = false → s.now.reqValid = false →
          step s = .next { s with regs := { s.regs with rspv := false }, inputs := s.inputs.tail })

/-- Accept (10_state.md section 3), for every request word; and the engine does not look at `req_word` again while the request
is executed. That the Accept fires at the very edge at which the request is presented, `stall` or not, is log 2. -/
def Obligations.AcceptLatchesTheRequest : Prop :=
  (∀ (s : State) (w : BitVec 20), s.now.rst = false → s.regs.busy = false → s.now.reqValid = true → s.now.reqWord = w →
    step s = .next
      { regs :=
          { addr := s.regs.addr, busy := true, op := w.extractLsb' 16 4, a := w.extractLsb' 8 8, b := w.extractLsb' 0 8,
            step := 0, pend := false,
            res := (if w.extractLsb' 16 4 = 0x0#4 ∨ 0x6#4 ≤ w.extractLsb' 16 4 then 0b100 else 0)
              ||| (if w.extractLsb' 16 4 = 0x4#4 ∧ w.extractLsb' 8 8 ≠ 0x00#8 ∧ w.extractLsb' 8 8 ≠ 0x01#8
                    then 0b010 else 0),
            rspv := false, rspr := s.regs.rspr }
        inputs := s.inputs.tail
        history := .accepted w :: s.history })
    ∧ ∀ (s : State) (i : Inputs) (rest : List Inputs) (w : ReqWord), s.regs.busy = true → s.inputs = i :: rest →
        step { s with inputs := { i with reqWord := w } :: rest } = step s

/-- R28: Issue sets `PEND`, in a cycle in which the engine does not idle (log 2), and nothing else changes; while `PEND` is 1
the ports present the event. -/
def Obligations.IssuePresentsTheEvent : Prop :=
  (∀ (s : State) (e : PlanEvent), s.now.rst = false → s.now.stall = false → s.regs.busy = true → s.regs.pend = false →
    (planOf s.regs.op s.regs.a s.regs.b)[s.regs.step.toNat]? = some e →
    ∃ t, step s = .next t ∧ t.regs = { s.regs with pend := true, rspv := false } ∧ t.inputs = s.inputs.tail
      ∧ match e with
        | .write data => t.history = .write s.regs.addr data none :: s.history
        | .delay ms => t.history = .delay ms false :: s.history)
    ∧ ∀ (r : Regs) (e : PlanEvent), r.busy = true → r.pend = true →
        (planOf r.op r.a r.b)[r.step.toNat]? = some e →
        match e with
        | .write data => (outputs r).bwValid = true ∧ (outputs r).bwAddr = r.addr ∧ (outputs r).bwData = data
            ∧ (outputs r).dlValid = false
        | .delay ms => (outputs r).dlValid = true ∧ (outputs r).dlMs = ms ∧ (outputs r).bwValid = false

/-- Complete (10_state.md section 3), for a write with either answer and for a delay; without the answer of its own
collaborator the pending event waits, and only `RSPV` is cleared. That the Complete fires at the very edge of the answer,
`stall` or not, is log 2. -/
def Obligations.CompleteAdvancesTheStep : Prop :=
  ∀ (s : State) (e : PlanEvent), s.now.rst = false → s.regs.busy = true → s.regs.pend = true →
    (planOf s.regs.op s.regs.a s.regs.b)[s.regs.step.toNat]? = some e →
    ∃ t, step s = .next t ∧ t.inputs = s.inputs.tail
      ∧ match e with
        | .write _ =>
            if s.now.bwDone then
              t.regs = { s.regs with pend := false, step := s.regs.step + 1, rspv := false,
                                     res := if s.now.bwFail then s.regs.res ||| 0b001 else s.regs.res }
            else t.regs = { s.regs with rspv := false } ∧ t.history = s.history
        | .delay _ =>
            if s.now.dlDone then t.regs = { s.regs with pend := false, step := s.regs.step + 1, rspv := false }
            else t.regs = { s.regs with rspv := false } ∧ t.history = s.history

/-- R29: "the engine waits for ever": over any number of edges at which neither collaborator answers and no reset comes, a
pending event stays pending. -/
def Obligations.UnansweredEventWaitsForEver : Prop :=
  ∀ (k : Nat) (s : State), s.regs.busy = true → s.regs.pend = true →
    (∀ i ∈ s.inputs, i.rst = false ∧ i.bwDone = false ∧ i.dlDone = false) →
    ∃ t, Host.Core.run Sys2Proof.core (k + 1) s = .next t ∧ t.regs = { s.regs with rspv := false }
      ∧ t.history = s.history ∧ t.inputs = s.inputs.drop (k + 1)

/-- Respond (10_state.md section 3) at the end of the plan; at the edge after it `RSPV` is 0 whatever else happens, a new Accept
among it; for an empty plan Respond is the first transition after Accept. That the engine's idle cycles are the `stall` bit
and delay Respond, while the Accept fires at the very edge of the request, is the model's reading (log 2). -/
def Obligations.RespondPulsesTheResult : Prop :=
  (∀ s : State, s.now.rst = false → s.now.stall = false → s.regs.busy = true → s.regs.pend = false →
      s.regs.step.toNat = (planOf s.regs.op s.regs.a s.regs.b).length →
      step s = .next
        { regs := { s.regs with busy := false, rspv := true, rspr := s.regs.res }
          inputs := s.inputs.tail
          history := .respond s.regs.res :: s.history })
    ∧ (∀ s t : State, s.regs.busy = false → step s = .next t → t.regs.rspv = false)
    ∧ ∀ s t : State, s.now.rst = false → s.regs.busy = false → s.now.reqValid = true →
        planOf (s.now.reqWord.extractLsb' 16 4) (s.now.reqWord.extractLsb' 8 8) (s.now.reqWord.extractLsb' 0 8) = [] →
        step s = .next t → t.now.rst = false → t.now.stall = false →
        step t = .next
          { regs := { t.regs with busy := false, rspv := true, rspr := t.regs.res }
            inputs := t.inputs.tail
            history := .respond t.regs.res :: t.history }

/-- R33: `req_word` is read in the Accept transition only, and while busy neither it nor `req_valid` has an effect; then
`req_ready` is 0 and no request is accepted (10_state.md section 3). -/
def Obligations.RequestPortIsIgnoredWhileBusy : Prop :=
  (∀ (s : State) (i : Inputs) (rest : List Inputs) (w : ReqWord), s.inputs = i :: rest →
      s.regs.busy = true ∨ i.reqValid = false ∨ i.rst = true →
      step { s with inputs := { i with reqWord := w } :: rest } = step s)
    ∧ (∀ (s : State) (i : Inputs) (rest : List Inputs) (v : Bool) (w : ReqWord), s.regs.busy = true →
        s.inputs = i :: rest →
        step { s with inputs := { i with reqValid := v, reqWord := w } :: rest } = step s)
    ∧ ∀ (s t : State) (w : ReqWord), s.regs.busy = true → step s = .next t →
        (outputs s.regs).reqReady = false ∧ t.history ≠ .accepted w :: s.history

/-- R32: "`bw_done` or `dl_done` asserted while the matching `_valid` is 0 is ignored". -/
def Obligations.StrayDoneIsIgnored : Prop :=
  ∀ (s : State) (i : Inputs) (rest : List Inputs) (done fail : Bool), s.inputs = i :: rest →
    ((outputs s.regs).bwValid = false →
        step { s with inputs := { i with bwDone := done, bwFail := fail } :: rest } = step s)
      ∧ ((outputs s.regs).dlValid = false → step { s with inputs := { i with dlDone := done } :: rest } = step s)

/-- `STEP` (10_state.md section 3): while busy it is the index of the event that the ports present or that is issued next; it
advances by exactly 1 when the outstanding event completes and by no other amount; it is 0 after an Accept and after a
reset and else stays; in a state of the register invariant it is at most the plan's length, and that at most 26. That
Accept and Complete fire at the very edge of the request or the answer, `stall` or not, is log 2. -/
def Obligations.StepCounterAdvancesByOne : Prop :=
  ∀ s t : State, s.regs.Inv → step s = .next t →
    (s.now.rst = true → t.regs.step = 0)
      ∧ (s.now.rst = false → s.regs.busy = false → t.regs.step = if s.now.reqValid then 0 else s.regs.step)
      ∧ (s.now.rst = false → s.regs.busy = true →
          t.regs.step.toNat = s.regs.step.toNat
            + (if ((outputs s.regs).bwValid = true ∧ s.now.bwDone = true)
                  ∨ ((outputs s.regs).dlValid = true ∧ s.now.dlDone = true) then 1 else 0))
      ∧ (s.regs.busy = true → s.regs.step.toNat ≤ (planOf s.regs.op s.regs.a s.regs.b).length
          ∧ (planOf s.regs.op s.regs.a s.regs.b).length ≤ 26)
      ∧ ((outputs s.regs).bwValid = true →
          (planOf s.regs.op s.regs.a s.regs.b)[s.regs.step.toNat]? = some (.write (outputs s.regs).bwData))
      ∧ ((outputs s.regs).dlValid = true →
          (planOf s.regs.op s.regs.a s.regs.b)[s.regs.step.toNat]? = some (.delay (outputs s.regs).dlMs))
      ∧ (∀ (addr : BusAddr) (data : Byte), t.history = .write addr data none :: s.history →
          (planOf s.regs.op s.regs.a s.regs.b)[s.regs.step.toNat]? = some (.write data))
      ∧ ∀ ms : Byte, t.history = .delay ms false :: s.history →
          (planOf s.regs.op s.regs.a s.regs.b)[s.regs.step.toNat]? = some (.delay ms)

/-- No step ends in a fault or a refusal, whatever the state: there is no exception and no trap (R200). -/
def Obligations.EveryStepGoesOn : Prop := ∀ s : State, ∃ t, step s = .next t

/-! ### The requests -/

/-- INIT (R121, R122): 15 ms, then the command plans of its five bytes, in order. -/
def Obligations.InitRunsItsPlan : Prop :=
  ∀ a b : BitVec 8, RunsRequest (.init a b) 0x1 a b 0b000
    ([.delay 15] ++ cmdPlan 0x02 ++ cmdPlan 0x28 ++ cmdPlan 0x0C ++ cmdPlan 0x06 ++ cmdPlan 0x01)

/-- SEND_COMMAND (R130, R131): the high nibble's frame, then the low nibble's, each with enable high, then low, RS = 0
(R172's second form), then 2 ms. -/
def Obligations.SendCommandRunsItsPlan : Prop :=
  ∀ v b : BitVec 8, RunsRequest (.sendCommand v b) 0x2 v b 0b000
    [.write ((v &&& 0xF0) ||| maskBL ||| maskEN), .write ((v &&& 0xF0) ||| maskBL),
      .write (((v <<< 4) &&& 0xF0) ||| maskBL ||| maskEN), .write (((v <<< 4) &&& 0xF0) ||| maskBL), .delay 2]

/-- SEND_DATA (R135, R136): the same four writes with RS = 1, and no delay. -/
def Obligations.SendDataRunsItsPlan : Prop :=
  ∀ v b : BitVec 8, RunsRequest (.sendData v b) 0x3 v b 0b000
    [.write ((v &&& 0xF0) ||| maskRS ||| maskBL ||| maskEN), .write ((v &&& 0xF0) ||| maskRS ||| maskBL),
      .write (((v <<< 4) &&& 0xF0) ||| maskRS ||| maskBL ||| maskEN),
      .write (((v <<< 4) &&& 0xF0) ||| maskRS ||| maskBL)]

/-- SET_CURSOR (R150, R151, R152): rows 0 and 1 send the command byte `base + column`, modulo 256; every other row is accepted
with `NOCMD` and sends nothing. -/
def Obligations.SetCursorRunsItsPlan : Prop :=
  (∀ column : BitVec 8, RunsRequest (.setCursor 0 column) 0x4 0 column 0b000 (cmdPlan (0x80 + column)))
    ∧ (∀ column : BitVec 8, RunsRequest (.setCursor 1 column) 0x4 1 column 0b000 (cmdPlan (0xC0 + column)))
    ∧ ∀ row column : BitVec 8, row ≠ 0 → row ≠ 1 → RunsRequest (.setCursor row column) 0x4 row column 0b010 []

/-- CLEAR (R155): the command plan of the clear-display byte. -/
def Obligations.ClearRunsItsPlan : Prop :=
  ∀ a b : BitVec 8, RunsRequest (.clear a b) 0x5 a b 0b000 (cmdPlan 0x01)

/-- The eleven reserved opcodes (R85): accepted with `BADOP`, the empty plan; no other opcode is reserved. -/
def Obligations.ReservedOpcodesRunTheEmptyPlan : Prop :=
  (∀ op : BitVec 4, opIsReserved op = true ↔
      op ∈ [0x0#4, 0x6#4, 0x7#4, 0x8#4, 0x9#4, 0xA#4, 0xB#4, 0xC#4, 0xD#4, 0xE#4, 0xF#4])
    ∧ ∀ a b : BitVec 8,
        RunsRequest (.reserved0 a b) 0x0 a b 0b100 [] ∧ RunsRequest (.reserved6 a b) 0x6 a b 0b100 []
          ∧ RunsRequest (.reserved7 a b) 0x7 a b 0b100 [] ∧ RunsRequest (.reserved8 a b) 0x8 a b 0b100 []
          ∧ RunsRequest (.reserved9 a b) 0x9 a b 0b100 [] ∧ RunsRequest (.reservedA a b) 0xA a b 0b100 []
          ∧ RunsRequest (.reservedB a b) 0xB a b 0b100 [] ∧ RunsRequest (.reservedC a b) 0xC a b 0b100 []
          ∧ RunsRequest (.reservedD a b) 0xD a b 0b100 [] ∧ RunsRequest (.reservedE a b) 0xE a b 0b100 []
          ∧ RunsRequest (.reservedF a b) 0xF a b 0b100 []

/-- The LCD command bytes run as the request SEND_COMMAND of the byte with column field 0. That an LCD row is run this way
is the model's choice (log 7); the bytes are those of opcode_table.json. -/
def Obligations.LcdCommandBytesRunAsSendCommand : Prop :=
  RunsRequest .lcdNoInstruction 0x2 0x00 0 0b000 (cmdPlan 0x00)
    ∧ RunsRequest .lcdClearDisplay 0x2 0x01 0 0b000 (cmdPlan 0x01)
    ∧ (∀ x : BitVec 1, RunsRequest (.lcdReturnHome x) 0x2 (0b0000001#7 ++ x) 0 0b000 (cmdPlan (0b0000001#7 ++ x)))
    ∧ (∀ i s : BitVec 1,
        RunsRequest (.lcdEntryModeSet i s) 0x2 (0b000001#6 ++ i ++ s) 0 0b000 (cmdPlan (0b000001#6 ++ i ++ s)))
    ∧ (∀ d c b : BitVec 1,
        RunsRequest (.lcdDisplayControl d c b) 0x2 (0b00001#5 ++ d ++ c ++ b) 0 0b000
          (cmdPlan (0b00001#5 ++ d ++ c ++ b)))
    ∧ (∀ (s r : BitVec 1) (x : BitVec 2),
        RunsRequest (.lcdCursorDisplayShift s r x) 0x2 (0b0001#4 ++ s ++ r ++ x) 0 0b000
          (cmdPlan (0b0001#4 ++ s ++ r ++ x)))
    ∧ (∀ (d n f : BitVec 1) (x : BitVec 2),
        RunsRequest (.lcdFunctionSet d n f x) 0x2 (0b001#3 ++ d ++ n ++ f ++ x) 0 0b000
          (cmdPlan (0b001#3 ++ d ++ n ++ f ++ x)))
    ∧ (∀ addr : BitVec 6,
        RunsRequest (.lcdSetCgramAddress addr) 0x2 (0b01#2 ++ addr) 0 0b000 (cmdPlan (0b01#2 ++ addr)))
    ∧ ∀ addr : BitVec 7,
        RunsRequest (.lcdSetDdramAddress addr) 0x2 (0b1#1 ++ addr) 0 0b000 (cmdPlan (0b1#1 ++ addr))

/-- The frame of every instruction: whatever `exec` does, `ADDR` stays; `OP`, `A`, `B` change at an Accept only; `RSPR` changes
at a Respond only, which is the only way to set `RSPV`; `RES` keeps its `NOCMD` and `BADOP` bits but at an Accept; one
input cycle is used up; and the history changes only by one new item, or by the answer to its newest one. -/
def Obligations.InstructionsLeaveTheRestUnchanged : Prop :=
  ∀ (i : Instr) (s t : State), exec i s = .next t →
    t.regs.addr = s.regs.addr
      ∧ (s.regs.busy = true → t.regs.op = s.regs.op ∧ t.regs.a = s.regs.a ∧ t.regs.b = s.regs.b)
      ∧ (s.regs.busy = true → t.regs.res &&& 0b110 = s.regs.res &&& 0b110)
      ∧ (t.regs.rspv = true → s.regs.busy = true ∧ t.regs.busy = false ∧ t.regs.rspr = s.regs.res)
      ∧ (t.regs.rspv = false → t.regs.rspr = s.regs.rspr)
      ∧ t.inputs = s.inputs.tail
      ∧ (t.history = s.history
          ∨ (∃ item, t.history = item :: s.history)
          ∨ (∃ (addr : BusAddr) (data : Byte) (answer : Answer) (older : List HistoryItem),
              s.history = .write addr data none :: older ∧ t.history = .write addr data (some answer) :: older)
          ∨ ∃ (ms : Byte) (older : List HistoryItem),
              s.history = .delay ms false :: older ∧ t.history = .delay ms true :: older)

/-- A word placed by `withFetchWord` is what the next step runs: a request word by its instruction, a command byte by the
instruction of its row, which the placed request SEND_COMMAND of the byte carries (log 7). How a program comes to run at
all is log 12. -/
def Obligations.PlacedWordIsRunNext : Prop :=
  (∀ (s : State) (w : BitVec 20),
      decodeTableWord 24 w.toNat = some (decodeRequest w)
        ∧ step (s.withFetchWord 24 w.toNat) = exec (decodeRequest w) (s.withFetchWord 24 w.toNat))
    ∧ ∀ (s : State) (v : BitVec 8),
        decodeTableWord 8 v.toNat = some (decodeLcdCommand v)
          ∧ step (s.withFetchWord 8 v.toNat) = exec (decodeLcdCommand v) (s.withFetchWord 8 v.toNat)

/-! ### Plans and frames -/

/-- The bytes of the plans (95_test_vectors.md 2.2, 2.3, 2.6), with the frame bit positions of log 5 (00_scope.md section 4):
`0xhC 0xh8 0xlC 0xl8` for the command byte `0xhl`, `0xhD 0xh9 0xlD 0xl9` for the data byte, and the 26 events of INIT. -/
def Obligations.PlanBytesAreTheVectors : Prop :=
  (∀ h l : BitVec 4,
      cmdPlan (h ++ l) = [.write (h ++ 0xC#4), .write (h ++ 0x8#4), .write (l ++ 0xC#4), .write (l ++ 0x8#4), .delay 2]
        ∧ dataPlan (h ++ l) = [.write (h ++ 0xD#4), .write (h ++ 0x9#4), .write (l ++ 0xD#4), .write (l ++ 0x9#4)])
    ∧ initPlan =
        [.delay 15,
          .write 0x0C, .write 0x08, .write 0x2C, .write 0x28, .delay 2,
          .write 0x2C, .write 0x28, .write 0x8C, .write 0x88, .delay 2,
          .write 0x0C, .write 0x08, .write 0xCC, .write 0xC8, .delay 2,
          .write 0x0C, .write 0x08, .write 0x6C, .write 0x68, .delay 2,
          .write 0x0C, .write 0x08, .write 0x1C, .write 0x18, .delay 2]

/-- R91: the bytes the engine ever writes are exactly these 64. -/
def Obligations.WrittenBytesAreTheFrameBytes : Prop :=
  (∀ data : BitVec 8,
      (∃ (op : BitVec 4) (a b : BitVec 8), PlanEvent.write data ∈ planOf op a b)
        ↔ ∃ (n : BitVec 4) (r : BitVec 8), (r = 0 ∨ r = 0x01)
            ∧ (data = ((n.setWidth 8 <<< 4) ||| 0x08 ||| 0x04 ||| r) ∨ data = ((n.setWidth 8 <<< 4) ||| 0x08 ||| r)))
    ∧ (∃ l : List (BitVec 8), l.length = 64 ∧ l.Nodup
        ∧ ∀ data, data ∈ l ↔ ∃ (op : BitVec 4) (a b : BitVec 8), PlanEvent.write data ∈ planOf op a b)
    ∧ ∀ (op : BitVec 4) (a b data : BitVec 8), PlanEvent.write data ∈ planOf op a b →
        data &&& 0x02 = 0 ∧ data &&& 0x08 = 0x08

/-- R83: the two kinds of event and the ports that present them; the only delays any plan contains are 15 and 2 ms, and each
occurs. -/
def Obligations.DelaysAreFifteenOrTwo : Prop :=
  (∀ ms : BitVec 8, (∃ (op : BitVec 4) (a b : BitVec 8), PlanEvent.delay ms ∈ planOf op a b) ↔ ms = 15 ∨ ms = 2)
    ∧ ∀ r : Regs,
        (∀ data : BitVec 8, (planOf r.op r.a r.b)[r.step.toNat]? = some (.write data) → (outputs r).bwData = data)
          ∧ ∀ ms : BitVec 8, (planOf r.op r.a r.b)[r.step.toNat]? = some (.delay ms) → (outputs r).dlMs = ms

/-- R173: in every plan each write with enable high is followed at once by the write of the same byte with enable low, and each
write with enable low comes at once after such a one. -/
def Obligations.EnablePulsesComeInPairs : Prop :=
  ∀ (op : BitVec 4) (a b : BitVec 8) (k : Nat) (data : BitVec 8),
    (planOf op a b)[k]? = some (.write data) →
    (data &&& 0x04 = 0x04 → (planOf op a b)[k + 1]? = some (.write (data &&& ~~~0x04#8)))
      ∧ (data &&& 0x04 = 0 → ∃ j, k = j + 1 ∧ (planOf op a b)[j]? = some (.write (data ||| 0x04)))

/-- R177: the frame decoder recovers from the four writes of a byte its two nibbles and the byte; and from the writes of any
sequence of bytes, that sequence. -/
def Obligations.FrameDecoderRecoversTheBytes : Prop :=
  (∀ (v : BitVec 8) (r : RegSelect),
      latchedNibbles (writesOf (encodeByte v r)) = [⟨v.extractLsb' 4 4, r⟩, ⟨v.extractLsb' 0 4, r⟩]
        ∧ lcdBytes (writesOf (encodeByte v r)) = [⟨v, r⟩])
    ∧ ∀ bytes : List LcdByte, lcdBytes (writesOf (bytes.flatMap fun x => encodeByte x.value x.register)) = bytes

/-- R153: the column is added without a check: row 0 with a column aliases row 1 with the column less 0x40, and a column that
carries out of the set-DDRAM-address range sends another instruction's byte. -/
def Obligations.ColumnIsNotBoundsChecked : Prop :=
  (∀ c : BitVec 8, cursorPlan 0 c = cursorPlan 1 (c - 0x40))
    ∧ (∀ c : BitVec 8, 0x80#8 ≤ c → ∃ v : BitVec 8, v ≤ 0x7F#8 ∧ cursorPlan 0 c = cmdPlan v)
    ∧ (∀ c : BitVec 8, 0x40#8 ≤ c → ∃ v : BitVec 8, v ≤ 0xBF#8 ∧ cursorPlan 1 c = cmdPlan v)
    ∧ cursorPlan 0 0x81 = clearPlan

/-! ### Invariants -/

/-- The registers after reset satisfy the register invariant, and the reset state is safe. -/
def Obligations.ResetStateIsSafe : Prop := State.reset.Safe

/-- Every step keeps the register invariant (R22, R24, R25, R30, R36, R202, R204), from every state. -/
def Obligations.StepKeepsTheRegisterInvariant : Prop :=
  ∀ s t : State, s.regs.Inv → step s = .next t → t.regs.Inv

/-- Every step keeps a safe state safe, whatever the host, the transport and the timer do: the history goes on conforming to
the plans (R50, R51, R61) and the results (R203). -/
def Obligations.StepKeepsTheHistoryConforming : Prop := ∀ s t : State, s.Safe → step s = .next t → t.Safe

/-- Every step keeps the history's items legal: frame bytes only (R91), delays of 15 or 2 ms (R83), results that can occur
(R202). -/
def Obligations.StepKeepsTheHistoryItemsLegal : Prop :=
  ∀ s t : State, s.regs.Inv → (∀ item ∈ s.history, LegalItem item) → step s = .next t →
    ∀ item ∈ t.history, LegalItem item

/-- The ports (10_state.md sections 4 and 5), in a state of the register invariant: exactly one of `bw_valid` and `dl_valid` is
high while an event is pending, and neither otherwise; what is presented is the event of the plan at index `STEP`; the
other ports are as the port table says. Without an event at `STEP` both data ports read 0 (log 9). -/
def Obligations.PortsPresentOneEventAtMost : Prop :=
  ∀ r : Regs, r.Inv →
    (r.pend = true ↔ (outputs r).bwValid = true ∨ (outputs r).dlValid = true)
      ∧ ¬ ((outputs r).bwValid = true ∧ (outputs r).dlValid = true)
      ∧ (outputs r).reqReady = !r.busy ∧ (outputs r).bwHold = true ∧ (outputs r).bwAddr = r.addr
      ∧ (outputs r).rspValid = r.rspv ∧ (outputs r).rspResult = r.rspr
      ∧ ((outputs r).bwValid = true →
          (planOf r.op r.a r.b)[r.step.toNat]? = some (.write (outputs r).bwData) ∧ (outputs r).dlMs = 0)
      ∧ ((outputs r).dlValid = true →
          (planOf r.op r.a r.b)[r.step.toNat]? = some (.delay (outputs r).dlMs) ∧ (outputs r).bwData = 0)
      ∧ ((planOf r.op r.a r.b)[r.step.toNat]? = none → (outputs r).bwData = 0 ∧ (outputs r).dlMs = 0)

/-! ### Whole requests -/

/-- A whole request (R50, R61, R203): over every sequence of input cycles without a reset in which the request is presented to
an idle engine and each of its events is completed in the end, it issues exactly its plan, in order, and then responds
with its result. The engine's idle cycles before each Issue and before the Respond (log 2), the waiting times, the answers,
and what the host holds on the request port meanwhile (R31) are all free. -/
def Obligations.RequestRunsToItsResponse : Prop :=
  ∀ (s : State) (w : ReqWord) (c : Schedule) (rest : List Inputs), s.regs.busy = false → c.Serves w →
    s.inputs = c.cycles ++ rest →
    Host.Core.run Sys2Proof.core c.cycles.length s = .next (afterRequest w c.fails rest s)

/-- R54: the transport's answers change nothing but the `BUSFAIL` bit: two states that agree but for the answers given and to
come, and the `BUSFAIL` bits, agree in the same way after a step. -/
def Obligations.AnswersChangeOnlyBusFail : Prop :=
  ∀ s s' : State, s.eraseFailures = s'.eraseFailures →
    ∃ t t', step s = .next t ∧ step s' = .next t' ∧ t.eraseFailures = t'.eraseFailures

/-- R58, and R157 and R124 for CLEAR and INIT: the same request made twice, from an idle engine, with the same answers but any
cycles, issues the same events twice and leaves the registers the same after the second as after the first. -/
def Obligations.RepeatedRequestRepeatsItsEvents : Prop :=
  ∀ (s : State) (w : ReqWord) (c c' : Schedule) (rest : List Inputs), s.regs.busy = false → c.Serves w → c'.Serves w →
    c'.fails = c.fails → s.inputs = c.cycles ++ (c'.cycles ++ rest) →
    ∃ (t u : State) (items : List HistoryItem),
      Host.Core.run Sys2Proof.core c.cycles.length s = .next t
        ∧ Host.Core.run Sys2Proof.core c'.cycles.length t = .next u
        ∧ u.regs = t.regs ∧ t.history = items ++ s.history ∧ u.history = items ++ t.history

/-- What the LCD is sent, read by the frame decoder (log 11): a request all of whose writes are answered `ok` delivers its
bytes, each to its register (R122, R131, R136, R151, R156, R176). -/
def Obligations.SuccessfulRequestDeliversItsBytes : Prop :=
  ∀ (addr : BusAddr) (w : ReqWord) (fails : List Bool), fails.length = (planOfWord w).length →
    anyWriteFailed (planOfWord w) fails = false →
    lcdView addr (completedItems addr (planOfWord w) fails).reverse = bytesSent (decodeRequest w)
end

