-- ==== Sys2Proof/Laws/Decode.lean ====
section
/-! SUPPORT. The fields of a request word and the decoder: reading back the fields of an assembled word, and what each opcode
decodes to. -/

namespace Sys2Proof

theorem ReqWord.getLsbD_ofFields (op : Opcode) (a b : Byte) (i : Nat) :
    (ReqWord.ofFields op a b).getLsbD i =
      if i < 8 then b.getLsbD i else if i < 16 then a.getLsbD (i - 8) else op.getLsbD (i - 16) := by
  show BitVec.getLsbD (op ++ a ++ b) i = _
  rw [BitVec.getLsbD_append, BitVec.getLsbD_append]
  by_cases h : i < 8
  · simp [h]
  · by_cases h' : i < 16
    · simp [h, h', show i - 8 < 8 by omega]
    · simp [h, h', show ¬ i - 8 < 8 by omega, show i - 8 - 8 = i - 16 by omega]

@[simp] theorem ReqWord.opcode_ofFields (op : Opcode) (a b : Byte) : (ReqWord.ofFields op a b).opcode = op := by
  apply BitVec.eq_of_getLsbD_eq
  intro i hi
  simp [ReqWord.opcode, ReqWord.getLsbD_ofFields, hi, show ¬ 16 + i < 8 by omega]

@[simp] theorem ReqWord.argA_ofFields (op : Opcode) (a b : Byte) : (ReqWord.ofFields op a b).argA = a := by
  apply BitVec.eq_of_getLsbD_eq
  intro i hi
  simp [ReqWord.argA, ReqWord.getLsbD_ofFields, hi, show 8 + i < 16 by omega]

@[simp] theorem ReqWord.argB_ofFields (op : Opcode) (a b : Byte) : (ReqWord.ofFields op a b).argB = b := by
  apply BitVec.eq_of_getLsbD_eq
  intro i hi
  simp [ReqWord.argB, ReqWord.getLsbD_ofFields, hi]

@[simp] theorem ReqWord.ofFields_fields (w : ReqWord) : ReqWord.ofFields w.opcode w.argA w.argB = w := by
  apply BitVec.eq_of_getLsbD_eq
  intro i hi
  simp only [ReqWord.getLsbD_ofFields, ReqWord.opcode, ReqWord.argA, ReqWord.argB, BitVec.getLsbD_extractLsb']
  split_ifs with h h'
  · simp [h]
  · simp [show i - 8 < 8 by omega, show 8 + (i - 8) = i by omega]
  · simp [show i - 16 < 4 by omega, show 16 + (i - 16) = i by omega]

/-- The bits the decoder looks at are the opcode's. -/
theorem ReqWord.opcode_bits (w : ReqWord) :
    w.opcode.getLsbD 3 = w.getLsbD 19 ∧ w.opcode.getLsbD 2 = w.getLsbD 18
      ∧ w.opcode.getLsbD 1 = w.getLsbD 17 ∧ w.opcode.getLsbD 0 = w.getLsbD 16 := by
  simp [ReqWord.opcode]

/-- The sixteen opcodes. -/
theorem Opcode.cases : ∀ o : Opcode,
    o = 0x0 ∨ o = 0x1 ∨ o = 0x2 ∨ o = 0x3 ∨ o = 0x4 ∨ o = 0x5 ∨ o = 0x6 ∨ o = 0x7
      ∨ o = 0x8 ∨ o = 0x9 ∨ o = 0xA ∨ o = 0xB ∨ o = 0xC ∨ o = 0xD ∨ o = 0xE ∨ o = 0xF := by decide

theorem decodeRequest_reserved0 {w : ReqWord} (h : w.opcode = 0x0) : decodeRequest w = .reserved0 w.argA w.argB := by
  obtain ⟨h3, h2, h1, h0⟩ := w.opcode_bits
  rw [h] at h3 h2 h1 h0
  unfold decodeRequest
  rw [← h3, ← h2, ← h1, ← h0]
  rfl

theorem decodeRequest_init {w : ReqWord} (h : w.opcode = 0x1) : decodeRequest w = .init w.argA w.argB := by
  obtain ⟨h3, h2, h1, h0⟩ := w.opcode_bits
  rw [h] at h3 h2 h1 h0
  unfold decodeRequest
  rw [← h3, ← h2, ← h1, ← h0]
  rfl

theorem decodeRequest_sendCommand {w : ReqWord} (h : w.opcode = 0x2) : decodeRequest w = .sendCommand w.argA w.argB := by
  obtain ⟨h3, h2, h1, h0⟩ := w.opcode_bits
  rw [h] at h3 h2 h1 h0
  unfold decodeRequest
  rw [← h3, ← h2, ← h1, ← h0]
  rfl

theorem decodeRequest_sendData {w : ReqWord} (h : w.opcode = 0x3) : decodeRequest w = .sendData w.argA w.argB := by
  obtain ⟨h3, h2, h1, h0⟩ := w.opcode_bits
  rw [h] at h3 h2 h1 h0
  unfold decodeRequest
  rw [← h3, ← h2, ← h1, ← h0]
  rfl

theorem decodeRequest_setCursor {w : ReqWord} (h : w.opcode = 0x4) : decodeRequest w = .setCursor w.argA w.argB := by
  obtain ⟨h3, h2, h1, h0⟩ := w.opcode_bits
  rw [h] at h3 h2 h1 h0
  unfold decodeRequest
  rw [← h3, ← h2, ← h1, ← h0]
  rfl

theorem decodeRequest_clear {w : ReqWord} (h : w.opcode = 0x5) : decodeRequest w = .clear w.argA w.argB := by
  obtain ⟨h3, h2, h1, h0⟩ := w.opcode_bits
  rw [h] at h3 h2 h1 h0
  unfold decodeRequest
  rw [← h3, ← h2, ← h1, ← h0]
  rfl

theorem decodeRequest_reserved6 {w : ReqWord} (h : w.opcode = 0x6) : decodeRequest w = .reserved6 w.argA w.argB := by
  obtain ⟨h3, h2, h1, h0⟩ := w.opcode_bits
  rw [h] at h3 h2 h1 h0
  unfold decodeRequest
  rw [← h3, ← h2, ← h1, ← h0]
  rfl

theorem decodeRequest_reserved7 {w : ReqWord} (h : w.opcode = 0x7) : decodeRequest w = .reserved7 w.argA w.argB := by
  obtain ⟨h3, h2, h1, h0⟩ := w.opcode_bits
  rw [h] at h3 h2 h1 h0
  unfold decodeRequest
  rw [← h3, ← h2, ← h1, ← h0]
  rfl

theorem decodeRequest_reserved8 {w : ReqWord} (h : w.opcode = 0x8) : decodeRequest w = .reserved8 w.argA w.argB := by
  obtain ⟨h3, h2, h1, h0⟩ := w.opcode_bits
  rw [h] at h3 h2 h1 h0
  unfold decodeRequest
  rw [← h3, ← h2, ← h1, ← h0]
  rfl

theorem decodeRequest_reserved9 {w : ReqWord} (h : w.opcode = 0x9) : decodeRequest w = .reserved9 w.argA w.argB := by
  obtain ⟨h3, h2, h1, h0⟩ := w.opcode_bits
  rw [h] at h3 h2 h1 h0
  unfold decodeRequest
  rw [← h3, ← h2, ← h1, ← h0]
  rfl

theorem decodeRequest_reservedA {w : ReqWord} (h : w.opcode = 0xA) : decodeRequest w = .reservedA w.argA w.argB := by
  obtain ⟨h3, h2, h1, h0⟩ := w.opcode_bits
  rw [h] at h3 h2 h1 h0
  unfold decodeRequest
  rw [← h3, ← h2, ← h1, ← h0]
  rfl

theorem decodeRequest_reservedB {w : ReqWord} (h : w.opcode = 0xB) : decodeRequest w = .reservedB w.argA w.argB := by
  obtain ⟨h3, h2, h1, h0⟩ := w.opcode_bits
  rw [h] at h3 h2 h1 h0
  unfold decodeRequest
  rw [← h3, ← h2, ← h1, ← h0]
  rfl

theorem decodeRequest_reservedC {w : ReqWord} (h : w.opcode = 0xC) : decodeRequest w = .reservedC w.argA w.argB := by
  obtain ⟨h3, h2, h1, h0⟩ := w.opcode_bits
  rw [h] at h3 h2 h1 h0
  unfold decodeRequest
  rw [← h3, ← h2, ← h1, ← h0]
  rfl

theorem decodeRequest_reservedD {w : ReqWord} (h : w.opcode = 0xD) : decodeRequest w = .reservedD w.argA w.argB := by
  obtain ⟨h3, h2, h1, h0⟩ := w.opcode_bits
  rw [h] at h3 h2 h1 h0
  unfold decodeRequest
  rw [← h3, ← h2, ← h1, ← h0]
  rfl

theorem decodeRequest_reservedE {w : ReqWord} (h : w.opcode = 0xE) : decodeRequest w = .reservedE w.argA w.argB := by
  obtain ⟨h3, h2, h1, h0⟩ := w.opcode_bits
  rw [h] at h3 h2 h1 h0
  unfold decodeRequest
  rw [← h3, ← h2, ← h1, ← h0]
  rfl

theorem decodeRequest_reservedF {w : ReqWord} (h : w.opcode = 0xF) : decodeRequest w = .reservedF w.argA w.argB := by
  obtain ⟨h3, h2, h1, h0⟩ := w.opcode_bits
  rw [h] at h3 h2 h1 h0
  unfold decodeRequest
  rw [← h3, ← h2, ← h1, ← h0]
  rfl

end Sys2Proof
end

