-- ==== Sys2Proof/Laws/State.lean ====
section
/-! SUPPORT. One lemma for each field of the state after each update: what the operation writes there, and what it leaves
alone. Every later proof cites these and never unfolds an operation. -/

namespace Sys2Proof.Machine

@[simp] theorem tick_addr (s : State) : s.tick.regs.addr = s.regs.addr := rfl
@[simp] theorem tick_busy (s : State) : s.tick.regs.busy = s.regs.busy := rfl
@[simp] theorem tick_op (s : State) : s.tick.regs.op = s.regs.op := rfl
@[simp] theorem tick_a (s : State) : s.tick.regs.a = s.regs.a := rfl
@[simp] theorem tick_b (s : State) : s.tick.regs.b = s.regs.b := rfl
@[simp] theorem tick_step (s : State) : s.tick.regs.step = s.regs.step := rfl
@[simp] theorem tick_pend (s : State) : s.tick.regs.pend = s.regs.pend := rfl
@[simp] theorem tick_res (s : State) : s.tick.regs.res = s.regs.res := rfl
@[simp] theorem tick_rspv (s : State) : s.tick.regs.rspv = false := rfl
@[simp] theorem tick_rspr (s : State) : s.tick.regs.rspr = s.regs.rspr := rfl
@[simp] theorem tick_inputs (s : State) : s.tick.inputs = s.inputs.tail := rfl
@[simp] theorem tick_history (s : State) : s.tick.history = s.history := rfl

@[simp] theorem accept_addr (op : Opcode) (a b : Byte) (s : State) : (accept op a b s).regs.addr = s.regs.addr := rfl
@[simp] theorem accept_busy (op : Opcode) (a b : Byte) (s : State) : (accept op a b s).regs.busy = true := rfl
@[simp] theorem accept_op (op : Opcode) (a b : Byte) (s : State) : (accept op a b s).regs.op = op := rfl
@[simp] theorem accept_a (op : Opcode) (a b : Byte) (s : State) : (accept op a b s).regs.a = a := rfl
@[simp] theorem accept_b (op : Opcode) (a b : Byte) (s : State) : (accept op a b s).regs.b = b := rfl
@[simp] theorem accept_step (op : Opcode) (a b : Byte) (s : State) : (accept op a b s).regs.step = 0 := rfl
@[simp] theorem accept_pend (op : Opcode) (a b : Byte) (s : State) : (accept op a b s).regs.pend = false := rfl
@[simp] theorem accept_res (op : Opcode) (a b : Byte) (s : State) : (accept op a b s).regs.res = resAtAccept op a := rfl
@[simp] theorem accept_rspv (op : Opcode) (a b : Byte) (s : State) : (accept op a b s).regs.rspv = false := rfl
@[simp] theorem accept_rspr (op : Opcode) (a b : Byte) (s : State) : (accept op a b s).regs.rspr = s.regs.rspr := rfl
@[simp] theorem accept_inputs (op : Opcode) (a b : Byte) (s : State) : (accept op a b s).inputs = s.inputs.tail := rfl
@[simp] theorem accept_history (op : Opcode) (a b : Byte) (s : State) : (accept op a b s).history = .accepted (ReqWord.ofFields op a b) :: s.history := rfl

@[simp] theorem issue_addr (e : PlanEvent) (s : State) : (issue e s).regs.addr = s.regs.addr := rfl
@[simp] theorem issue_busy (e : PlanEvent) (s : State) : (issue e s).regs.busy = s.regs.busy := rfl
@[simp] theorem issue_op (e : PlanEvent) (s : State) : (issue e s).regs.op = s.regs.op := rfl
@[simp] theorem issue_a (e : PlanEvent) (s : State) : (issue e s).regs.a = s.regs.a := rfl
@[simp] theorem issue_b (e : PlanEvent) (s : State) : (issue e s).regs.b = s.regs.b := rfl
@[simp] theorem issue_step (e : PlanEvent) (s : State) : (issue e s).regs.step = s.regs.step := rfl
@[simp] theorem issue_pend (e : PlanEvent) (s : State) : (issue e s).regs.pend = true := rfl
@[simp] theorem issue_res (e : PlanEvent) (s : State) : (issue e s).regs.res = s.regs.res := rfl
@[simp] theorem issue_rspv (e : PlanEvent) (s : State) : (issue e s).regs.rspv = false := rfl
@[simp] theorem issue_rspr (e : PlanEvent) (s : State) : (issue e s).regs.rspr = s.regs.rspr := rfl
@[simp] theorem issue_inputs (e : PlanEvent) (s : State) : (issue e s).inputs = s.inputs.tail := rfl
@[simp] theorem issue_history (e : PlanEvent) (s : State) : (issue e s).history = issuedItem s.regs.addr e :: s.history := rfl

@[simp] theorem complete_addr (e : PlanEvent) (s : State) : (complete e s).regs.addr = s.regs.addr := rfl
@[simp] theorem complete_busy (e : PlanEvent) (s : State) : (complete e s).regs.busy = s.regs.busy := rfl
@[simp] theorem complete_op (e : PlanEvent) (s : State) : (complete e s).regs.op = s.regs.op := rfl
@[simp] theorem complete_a (e : PlanEvent) (s : State) : (complete e s).regs.a = s.regs.a := rfl
@[simp] theorem complete_b (e : PlanEvent) (s : State) : (complete e s).regs.b = s.regs.b := rfl
@[simp] theorem complete_step (e : PlanEvent) (s : State) : (complete e s).regs.step = s.regs.step + 1 := rfl
@[simp] theorem complete_pend (e : PlanEvent) (s : State) : (complete e s).regs.pend = false := rfl
@[simp] theorem complete_res (e : PlanEvent) (s : State) : (complete e s).regs.res = resAfterEvent e s.regs.res s.now.bwFail := rfl
@[simp] theorem complete_rspv (e : PlanEvent) (s : State) : (complete e s).regs.rspv = false := rfl
@[simp] theorem complete_rspr (e : PlanEvent) (s : State) : (complete e s).regs.rspr = s.regs.rspr := rfl
@[simp] theorem complete_inputs (e : PlanEvent) (s : State) : (complete e s).inputs = s.inputs.tail := rfl
@[simp] theorem complete_history (e : PlanEvent) (s : State) : (complete e s).history = answerNewest e s.now.bwFail s.history := rfl

@[simp] theorem respond_addr (s : State) : (respond s).regs.addr = s.regs.addr := rfl
@[simp] theorem respond_busy (s : State) : (respond s).regs.busy = false := rfl
@[simp] theorem respond_op (s : State) : (respond s).regs.op = s.regs.op := rfl
@[simp] theorem respond_a (s : State) : (respond s).regs.a = s.regs.a := rfl
@[simp] theorem respond_b (s : State) : (respond s).regs.b = s.regs.b := rfl
@[simp] theorem respond_step (s : State) : (respond s).regs.step = s.regs.step := rfl
@[simp] theorem respond_pend (s : State) : (respond s).regs.pend = s.regs.pend := rfl
@[simp] theorem respond_res (s : State) : (respond s).regs.res = s.regs.res := rfl
@[simp] theorem respond_rspv (s : State) : (respond s).regs.rspv = true := rfl
@[simp] theorem respond_rspr (s : State) : (respond s).regs.rspr = s.regs.res := rfl
@[simp] theorem respond_inputs (s : State) : (respond s).inputs = s.inputs.tail := rfl
@[simp] theorem respond_history (s : State) : (respond s).history = .respond s.regs.res :: s.history := rfl

@[simp] theorem resetEdge_addr (s : State) : (resetEdge s).regs.addr = s.now.cfgAddr := rfl
@[simp] theorem resetEdge_busy (s : State) : (resetEdge s).regs.busy = false := rfl
@[simp] theorem resetEdge_op (s : State) : (resetEdge s).regs.op = 0 := rfl
@[simp] theorem resetEdge_a (s : State) : (resetEdge s).regs.a = 0 := rfl
@[simp] theorem resetEdge_b (s : State) : (resetEdge s).regs.b = 0 := rfl
@[simp] theorem resetEdge_step (s : State) : (resetEdge s).regs.step = 0 := rfl
@[simp] theorem resetEdge_pend (s : State) : (resetEdge s).regs.pend = false := rfl
@[simp] theorem resetEdge_res (s : State) : (resetEdge s).regs.res = 0 := rfl
@[simp] theorem resetEdge_rspv (s : State) : (resetEdge s).regs.rspv = false := rfl
@[simp] theorem resetEdge_rspr (s : State) : (resetEdge s).regs.rspr = 0 := rfl
@[simp] theorem resetEdge_inputs (s : State) : (resetEdge s).inputs = s.inputs.tail := rfl
@[simp] theorem resetEdge_history (s : State) : (resetEdge s).history = .reset s.now.cfgAddr :: s.history := rfl

@[simp] theorem now_cons (r : Regs) (i : Inputs) (rest : List Inputs) (h : List HistoryItem) :
    State.now { regs := r, inputs := i :: rest, history := h } = i := rfl

@[simp] theorem now_nil (r : Regs) (h : List HistoryItem) :
    State.now { regs := r, inputs := [], history := h } = Inputs.quiet := rfl

theorem now_of_inputs {s : State} {i : Inputs} {rest : List Inputs} (h : s.inputs = i :: rest) : s.now = i := by
  simp [State.now, h]

end Sys2Proof.Machine
end

