-- ==== Sys2Proof/Laws/Ops.lean ====
section
/-! SUPPORT. What the shared operations can do, said once: the plan a decoded request runs, the cases of the sequencer, and
the cases of a step. -/

namespace Sys2Proof.Machine

/-- Executing the instruction decoded from a word runs that word's plan (R82). -/
theorem exec_decodeRequest (w : ReqWord) (s : State) :
    exec (decodeRequest w) s = runRequest w.opcode w.argA w.argB (planOfWord w) s := by
  rcases Opcode.cases w.opcode with h | h | h | h | h | h | h | h | h | h | h | h | h | h | h | h
  · rw [decodeRequest_reserved0 h, planOfWord, h]; rfl
  · rw [decodeRequest_init h, planOfWord, h]; rfl
  · rw [decodeRequest_sendCommand h, planOfWord, h]; rfl
  · rw [decodeRequest_sendData h, planOfWord, h]; rfl
  · rw [decodeRequest_setCursor h, planOfWord, h]; rfl
  · rw [decodeRequest_clear h, planOfWord, h]; rfl
  · rw [decodeRequest_reserved6 h, planOfWord, h]; rfl
  · rw [decodeRequest_reserved7 h, planOfWord, h]; rfl
  · rw [decodeRequest_reserved8 h, planOfWord, h]; rfl
  · rw [decodeRequest_reserved9 h, planOfWord, h]; rfl
  · rw [decodeRequest_reservedA h, planOfWord, h]; rfl
  · rw [decodeRequest_reservedB h, planOfWord, h]; rfl
  · rw [decodeRequest_reservedC h, planOfWord, h]; rfl
  · rw [decodeRequest_reservedD h, planOfWord, h]; rfl
  · rw [decodeRequest_reservedE h, planOfWord, h]; rfl
  · rw [decodeRequest_reservedF h, planOfWord, h]; rfl

@[simp] theorem latchedWord_opcode (r : Regs) : r.latchedWord.opcode = r.op := by simp [Regs.latchedWord]
@[simp] theorem latchedWord_argA (r : Regs) : r.latchedWord.argA = r.a := by simp [Regs.latchedWord]
@[simp] theorem latchedWord_argB (r : Regs) : r.latchedWord.argB = r.b := by simp [Regs.latchedWord]

@[simp] theorem planOfWord_latchedWord (r : Regs) : planOfWord r.latchedWord = r.plan := by
  simp [planOfWord, Regs.plan]

@[simp] theorem planOfWord_ofFields (op : Opcode) (a b : Byte) :
    planOfWord (ReqWord.ofFields op a b) = planOf op a b := by
  simp [planOfWord]

/-- The sequencer's four cases: nothing, Issue, Complete, Respond (R28 to R30), each with its guard. -/
theorem sequencerEdge_cases (plan : List PlanEvent) (s : State) :
    (sequencerEdge plan s = s.tick
        ∧ ((s.regs.pend = false ∧ s.now.stall = true)
          ∨ (s.regs.pend = true ∧ ∀ e, plan[s.regs.step.toNat]? = some e → answered e s.now = false)
          ∨ plan.length < s.regs.step.toNat))
    ∨ (∃ e, plan[s.regs.step.toNat]? = some e ∧ s.regs.pend = false ∧ s.now.stall = false
        ∧ sequencerEdge plan s = issue e s)
    ∨ (∃ e, plan[s.regs.step.toNat]? = some e ∧ s.regs.pend = true ∧ answered e s.now = true
        ∧ sequencerEdge plan s = complete e s)
    ∨ (s.regs.step.toNat = plan.length ∧ s.regs.pend = false ∧ s.now.stall = false
        ∧ sequencerEdge plan s = respond s) := by
  cases he : plan[s.regs.step.toNat]? with
  | none =>
    have hlen : plan.length ≤ s.regs.step.toNat := List.getElem?_eq_none_iff.mp he
    cases hp : s.regs.pend with
    | true => exact .inl ⟨by simp [sequencerEdge, he, hp], .inr (.inl ⟨rfl, by simp⟩)⟩
    | false =>
      cases hs : s.now.stall with
      | true => exact .inl ⟨by simp [sequencerEdge, he, hp, hs], .inl ⟨rfl, rfl⟩⟩
      | false =>
        by_cases heq : s.regs.step.toNat = plan.length
        · exact .inr (.inr (.inr ⟨heq, rfl, rfl, by simp [sequencerEdge, hp, hs, heq]⟩))
        · exact .inl ⟨by simp [sequencerEdge, he, hp, hs, heq], .inr (.inr (by omega))⟩
  | some e =>
    cases hp : s.regs.pend with
    | true =>
      cases ha : answered e s.now with
      | true => exact .inr (.inr (.inl ⟨e, rfl, rfl, ha, by simp [sequencerEdge, he, hp, ha]⟩))
      | false => exact .inl ⟨by simp [sequencerEdge, he, hp, ha], .inr (.inl ⟨rfl, by simp [ha]⟩)⟩
    | false =>
      cases hs : s.now.stall with
      | true => exact .inl ⟨by simp [sequencerEdge, he, hp, hs], .inl ⟨rfl, rfl⟩⟩
      | false => exact .inr (.inl ⟨e, rfl, rfl, rfl, by simp [sequencerEdge, he, hp, hs]⟩)

/-- What a step does, as one expression. -/
theorem step_eq (s : State) :
    step s = .next
      (if s.now.rst then resetEdge s
       else if s.regs.busy then sequencerEdge s.regs.plan s
       else if s.now.reqValid then accept s.now.reqWord.opcode s.now.reqWord.argA s.now.reqWord.argB s
       else s.tick) := by
  unfold step State.currentInstr
  split_ifs <;> simp_all [exec_decodeRequest, runRequest]

/-- The cases of a step: reset, nothing to run, Accept, or the sequencer on the latched request's plan. -/
theorem step_cases {s t : State} (h : step s = .next t) :
    (s.now.rst = true ∧ t = resetEdge s)
    ∨ (s.now.rst = false ∧ s.regs.busy = false ∧ s.now.reqValid = false ∧ t = s.tick)
    ∨ (s.now.rst = false ∧ s.regs.busy = false ∧ s.now.reqValid = true
        ∧ t = accept s.now.reqWord.opcode s.now.reqWord.argA s.now.reqWord.argB s)
    ∨ (s.now.rst = false ∧ s.regs.busy = true ∧ t = sequencerEdge s.regs.plan s) := by
  rw [step_eq] at h
  cases hr : s.now.rst <;> cases hb : s.regs.busy <;> cases hv : s.now.reqValid <;> simp_all

/-- One step of a run, on any machine. -/
theorem core_run_succ {M : Host.Core} {s t : M.State} (h : M.step s = .next t) (k : Nat) :
    M.run (k + 1) s = M.run k t := by
  rw [Host.Core.run, h]

/-- One step of a run. -/
theorem run_succ {s t : State} (h : step s = .next t) (k : Nat) :
    Host.Core.run Sys2Proof.core (k + 1) s = Host.Core.run Sys2Proof.core k t :=
  core_run_succ (M := Sys2Proof.core) h k

/-- A run of `j + k` steps is a run of `j` and then one of `k`. -/
theorem run_add {j k : Nat} {s t : State} (h : Host.Core.run Sys2Proof.core j s = .next t) :
    Host.Core.run Sys2Proof.core (j + k) s = Host.Core.run Sys2Proof.core k t := by
  induction j generalizing s with
  | zero =>
    cases Host.Outcome.next.inj h
    rw [Nat.zero_add]
  | succ j ih =>
    rw [run_succ (step_eq s)] at h
    rw [Nat.add_right_comm, run_succ (step_eq s)]
    exact ih h

end Sys2Proof.Machine
end

