-- ==== Sys2Proof/Laws/PerInstr.lean ====
section
/-! SUPPORT. Statements about every instruction as an encoded word, one lemma for each constructor. -/

namespace Sys2Proof.Laws

/-- The encoded word carries, under the mask of the instruction's row of spec/opcode_table.json, the row's match. -/
def TableRow.Statement (i : Instr) : Prop := (encode i).toNat &&& i.tableRow.2 = i.tableRow.1

/-- The request that carries the instruction to the engine has the instruction's opcode. -/
def RequestOpcode.Statement (i : Instr) : Prop := (encode i).requestWord.opcode = i.opcode

/-- The opcode bits of a request word, as a number. -/
theorem opcodeBits_ofFields (op : Opcode) (a b : Byte) :
    (ReqWord.ofFields op a b).toNat &&& 0xF0000 = op.toNat <<< 16 := by
  apply Nat.eq_of_testBit_eq
  intro i
  have h : (ReqWord.ofFields op a b).toNat.testBit i = (ReqWord.ofFields op a b).getLsbD i := rfl
  have hop : op.toNat.testBit (i - 16) = op.getLsbD (i - 16) := rfl
  rw [Nat.testBit_and, h, ReqWord.getLsbD_ofFields, Nat.testBit_shiftLeft, hop]
  by_cases h16 : 16 ≤ i
  · by_cases h20 : i < 20
    · have : (0xF0000 : Nat).testBit i = true := by interval_cases i <;> rfl
      simp [h16, this, show ¬ i < 8 by omega, show ¬ i < 16 by omega]
    · have hz : op.getLsbD (i - 16) = false := BitVec.getLsbD_of_ge _ _ (by omega)
      simp [h16, hz, show ¬ i < 8 by omega, show ¬ i < 16 by omega]
  · have : (0xF0000 : Nat).testBit i = false := by
      have hi : i < 16 := by omega
      interval_cases i <;> rfl
    simp [h16, this]

theorem TableRow.init (a b : Byte) : TableRow.Statement (.init a b) := opcodeBits_ofFields _ _ _

theorem TableRow.sendCommand (v b : Byte) : TableRow.Statement (.sendCommand v b) := opcodeBits_ofFields _ _ _

theorem TableRow.sendData (v b : Byte) : TableRow.Statement (.sendData v b) := opcodeBits_ofFields _ _ _

theorem TableRow.setCursor (r c : Byte) : TableRow.Statement (.setCursor r c) := opcodeBits_ofFields _ _ _

theorem TableRow.clear (a b : Byte) : TableRow.Statement (.clear a b) := opcodeBits_ofFields _ _ _

theorem TableRow.reserved0 (a b : Byte) : TableRow.Statement (.reserved0 a b) := opcodeBits_ofFields _ _ _

theorem TableRow.reserved6 (a b : Byte) : TableRow.Statement (.reserved6 a b) := opcodeBits_ofFields _ _ _

theorem TableRow.reserved7 (a b : Byte) : TableRow.Statement (.reserved7 a b) := opcodeBits_ofFields _ _ _

theorem TableRow.reserved8 (a b : Byte) : TableRow.Statement (.reserved8 a b) := opcodeBits_ofFields _ _ _

theorem TableRow.reserved9 (a b : Byte) : TableRow.Statement (.reserved9 a b) := opcodeBits_ofFields _ _ _

theorem TableRow.reservedA (a b : Byte) : TableRow.Statement (.reservedA a b) := opcodeBits_ofFields _ _ _

theorem TableRow.reservedB (a b : Byte) : TableRow.Statement (.reservedB a b) := opcodeBits_ofFields _ _ _

theorem TableRow.reservedC (a b : Byte) : TableRow.Statement (.reservedC a b) := opcodeBits_ofFields _ _ _

theorem TableRow.reservedD (a b : Byte) : TableRow.Statement (.reservedD a b) := opcodeBits_ofFields _ _ _

theorem TableRow.reservedE (a b : Byte) : TableRow.Statement (.reservedE a b) := opcodeBits_ofFields _ _ _

theorem TableRow.reservedF (a b : Byte) : TableRow.Statement (.reservedF a b) := opcodeBits_ofFields _ _ _

theorem TableRow.lcdNoInstruction : TableRow.Statement (.lcdNoInstruction) := rfl

theorem TableRow.lcdClearDisplay : TableRow.Statement (.lcdClearDisplay) := rfl

theorem TableRow.lcdReturnHome (x : BitVec 1) : TableRow.Statement (.lcdReturnHome x) := by revert x; unfold TableRow.Statement; decide

theorem TableRow.lcdEntryModeSet (i : BitVec 1) (s : BitVec 1) : TableRow.Statement (.lcdEntryModeSet i s) := by revert i s; unfold TableRow.Statement; decide

theorem TableRow.lcdDisplayControl (d : BitVec 1) (c : BitVec 1) (b : BitVec 1) : TableRow.Statement (.lcdDisplayControl d c b) := by revert d c b; unfold TableRow.Statement; decide

theorem TableRow.lcdCursorDisplayShift (s : BitVec 1) (r : BitVec 1) (x : BitVec 2) : TableRow.Statement (.lcdCursorDisplayShift s r x) := by revert s r x; unfold TableRow.Statement; decide

theorem TableRow.lcdFunctionSet (d : BitVec 1) (n : BitVec 1) (f : BitVec 1) (x : BitVec 2) : TableRow.Statement (.lcdFunctionSet d n f x) := by revert d n f x; unfold TableRow.Statement; decide

theorem TableRow.lcdSetCgramAddress (addr : BitVec 6) : TableRow.Statement (.lcdSetCgramAddress addr) := by revert addr; unfold TableRow.Statement; decide

theorem TableRow.lcdSetDdramAddress (addr : BitVec 7) : TableRow.Statement (.lcdSetDdramAddress addr) := by revert addr; unfold TableRow.Statement; decide

theorem RequestOpcode.init (a b : Byte) : RequestOpcode.Statement (.init a b) := ReqWord.opcode_ofFields _ _ _

theorem RequestOpcode.sendCommand (v b : Byte) : RequestOpcode.Statement (.sendCommand v b) := ReqWord.opcode_ofFields _ _ _

theorem RequestOpcode.sendData (v b : Byte) : RequestOpcode.Statement (.sendData v b) := ReqWord.opcode_ofFields _ _ _

theorem RequestOpcode.setCursor (r c : Byte) : RequestOpcode.Statement (.setCursor r c) := ReqWord.opcode_ofFields _ _ _

theorem RequestOpcode.clear (a b : Byte) : RequestOpcode.Statement (.clear a b) := ReqWord.opcode_ofFields _ _ _

theorem RequestOpcode.reserved0 (a b : Byte) : RequestOpcode.Statement (.reserved0 a b) := ReqWord.opcode_ofFields _ _ _

theorem RequestOpcode.reserved6 (a b : Byte) : RequestOpcode.Statement (.reserved6 a b) := ReqWord.opcode_ofFields _ _ _

theorem RequestOpcode.reserved7 (a b : Byte) : RequestOpcode.Statement (.reserved7 a b) := ReqWord.opcode_ofFields _ _ _

theorem RequestOpcode.reserved8 (a b : Byte) : RequestOpcode.Statement (.reserved8 a b) := ReqWord.opcode_ofFields _ _ _

theorem RequestOpcode.reserved9 (a b : Byte) : RequestOpcode.Statement (.reserved9 a b) := ReqWord.opcode_ofFields _ _ _

theorem RequestOpcode.reservedA (a b : Byte) : RequestOpcode.Statement (.reservedA a b) := ReqWord.opcode_ofFields _ _ _

theorem RequestOpcode.reservedB (a b : Byte) : RequestOpcode.Statement (.reservedB a b) := ReqWord.opcode_ofFields _ _ _

theorem RequestOpcode.reservedC (a b : Byte) : RequestOpcode.Statement (.reservedC a b) := ReqWord.opcode_ofFields _ _ _

theorem RequestOpcode.reservedD (a b : Byte) : RequestOpcode.Statement (.reservedD a b) := ReqWord.opcode_ofFields _ _ _

theorem RequestOpcode.reservedE (a b : Byte) : RequestOpcode.Statement (.reservedE a b) := ReqWord.opcode_ofFields _ _ _

theorem RequestOpcode.reservedF (a b : Byte) : RequestOpcode.Statement (.reservedF a b) := ReqWord.opcode_ofFields _ _ _

theorem RequestOpcode.lcdNoInstruction : RequestOpcode.Statement (.lcdNoInstruction) := ReqWord.opcode_ofFields _ _ _

theorem RequestOpcode.lcdClearDisplay : RequestOpcode.Statement (.lcdClearDisplay) := ReqWord.opcode_ofFields _ _ _

theorem RequestOpcode.lcdReturnHome (x : BitVec 1) : RequestOpcode.Statement (.lcdReturnHome x) := ReqWord.opcode_ofFields _ _ _

theorem RequestOpcode.lcdEntryModeSet (i : BitVec 1) (s : BitVec 1) : RequestOpcode.Statement (.lcdEntryModeSet i s) := ReqWord.opcode_ofFields _ _ _

theorem RequestOpcode.lcdDisplayControl (d : BitVec 1) (c : BitVec 1) (b : BitVec 1) : RequestOpcode.Statement (.lcdDisplayControl d c b) := ReqWord.opcode_ofFields _ _ _

theorem RequestOpcode.lcdCursorDisplayShift (s : BitVec 1) (r : BitVec 1) (x : BitVec 2) : RequestOpcode.Statement (.lcdCursorDisplayShift s r x) := ReqWord.opcode_ofFields _ _ _

theorem RequestOpcode.lcdFunctionSet (d : BitVec 1) (n : BitVec 1) (f : BitVec 1) (x : BitVec 2) : RequestOpcode.Statement (.lcdFunctionSet d n f x) := ReqWord.opcode_ofFields _ _ _

theorem RequestOpcode.lcdSetCgramAddress (addr : BitVec 6) : RequestOpcode.Statement (.lcdSetCgramAddress addr) := ReqWord.opcode_ofFields _ _ _

theorem RequestOpcode.lcdSetDdramAddress (addr : BitVec 7) : RequestOpcode.Statement (.lcdSetDdramAddress addr) := ReqWord.opcode_ofFields _ _ _

end Sys2Proof.Laws
end

