-- ==== Sys2Proof/Laws/Plan.lean ====
section
/-! SUPPORT. The small facts of the plans: their lengths (R122, R131, R136, R151, R172), and the plan of each opcode. -/

namespace Sys2Proof.Machine

@[simp] theorem framePair_length (f : Byte) : (framePair f).length = 2 := rfl
@[simp] theorem encodeByte_length (v : Byte) (r : RegSelect) : (encodeByte v r).length = 4 := rfl
@[simp] theorem cmdPlan_length (v : Byte) : (cmdPlan v).length = 5 := rfl
@[simp] theorem dataPlan_length (v : Byte) : (dataPlan v).length = 4 := rfl
@[simp] theorem initPlan_length : initPlan.length = 26 := rfl
@[simp] theorem clearPlan_length : clearPlan.length = 5 := rfl

@[simp] theorem planOf_init (a b : Byte) : planOf 0x1 a b = initPlan := rfl
@[simp] theorem planOf_sendCommand (a b : Byte) : planOf 0x2 a b = cmdPlan a := rfl
@[simp] theorem planOf_sendData (a b : Byte) : planOf 0x3 a b = dataPlan a := rfl
@[simp] theorem planOf_setCursor (a b : Byte) : planOf 0x4 a b = cursorPlan a b := rfl
@[simp] theorem planOf_clear (a b : Byte) : planOf 0x5 a b = clearPlan := rfl

theorem cursorPlan_row0 (column : Byte) : cursorPlan 0 column = cmdPlan (row0Base + column) := rfl
theorem cursorPlan_row1 (column : Byte) : cursorPlan 1 column = cmdPlan (row1Base + column) := rfl

theorem cursorPlan_ignored {row : Byte} (h0 : row ≠ 0) (h1 : row ≠ 1) (column : Byte) : cursorPlan row column = [] := by
  rw [cursorPlan, cursorByte, if_neg h0, if_neg h1]

/-- The cases of a plan: the longest plan is INIT's; every other one sends one byte or nothing (R82). -/
theorem planOf_cases (op : Opcode) (a b : Byte) :
    planOf op a b = initPlan ∨ (∃ v, planOf op a b = cmdPlan v) ∨ (∃ v, planOf op a b = dataPlan v)
      ∨ planOf op a b = [] := by
  unfold planOf cursorPlan
  split_ifs
  · exact .inl rfl
  · exact .inr (.inl ⟨_, rfl⟩)
  · exact .inr (.inr (.inl ⟨_, rfl⟩))
  · cases cursorByte a b with
    | none => exact .inr (.inr (.inr rfl))
    | some v => exact .inr (.inl ⟨v, rfl⟩)
  · exact .inr (.inl ⟨_, rfl⟩)
  · exact .inr (.inr (.inr rfl))

end Sys2Proof.Machine
end

