-- ==== Sys2Proof/Tests/Slice0.lean ====
section
/-! SUPPORT. Tests and witnesses. Expected values are taken from the spec: the tables of 95_test_vectors.md, the patterns of
opcode_table.json and the rules named; no value is the model's own answer. -/

namespace Sys2Proof.Tests

open Sys2Proof Sys2Proof.Machine

/-! ### Well-formedness -/

theorem test_canonical_init : Instr.canonical (.init 0 1) = false := by decide
theorem test_canonical_sendCommand : Instr.canonical (.sendCommand 0xA5 0xC3) = false := by decide
theorem test_canonical_sendData : Instr.canonical (.sendData 0x00 0x41) = false := by decide
theorem test_canonical_clear : Instr.canonical (.clear 0xAB 0xCD) = false := by decide
theorem test_canonical_reserved :
    Instr.canonical (.reserved0 0 1) = false ∧ Instr.canonical (.reserved6 1 0) = false
      ∧ Instr.canonical (.reserved7 0 1) = false ∧ Instr.canonical (.reserved8 1 0) = false
      ∧ Instr.canonical (.reserved9 0 1) = false ∧ Instr.canonical (.reservedA 1 0) = false
      ∧ Instr.canonical (.reservedB 0 1) = false ∧ Instr.canonical (.reservedC 1 0) = false
      ∧ Instr.canonical (.reservedD 0 1) = false ∧ Instr.canonical (.reservedE 1 0) = false
      ∧ Instr.canonical (.reservedF 0 1) = false := by decide
theorem test_canonical_lcd :
    Instr.canonical (.lcdReturnHome 1) = false ∧ Instr.canonical (.lcdCursorDisplayShift 0 0 2) = false
      ∧ Instr.canonical (.lcdFunctionSet 0 0 0 1) = false := by decide

theorem test_operand_ranges :
    AsmNum.wf (.num 256) = false ∧ AsmNum.wf (.chr 0x1F) = false ∧ AsmNum.wf (.chr 0x7F) = false := by decide
theorem test_line_ranges :
    AsmLine.wf (.cmd (.num 256)) = false ∧ AsmLine.wf (.data (.num 256)) = false
      ∧ AsmLine.wf (.cursor (.num 256) (.num 0)) = false ∧ AsmLine.wf (.cursor (.num 0) (.num 256)) = false
      ∧ AsmLine.wf (.req 0x100000) = false ∧ AsmLine.wf (.print [0x41, 256]) = false := by decide

/-- A raw number that is no instruction's bits, by the name of the check. -/
theorem test_code_rejects :
    Code.ofBits 20 0x100000 = .error .bitAboveWord ∧ Code.ofBits 24 0xFFFFFF = .error .bitAboveWord
      ∧ Code.ofBits 8 0x100 = .error .bitAboveWord ∧ Code.ofBits 16 0 = .error .noSuchWidth
      ∧ Code.ofBits 7 0 = .error .noSuchWidth ∧ Code.ofBits 25 0 = .error .noSuchWidth := ⟨rfl, rfl, rfl, rfl, rfl, rfl⟩

/-! ### Decoding, one word for each row, bit by bit (R80, R84, R85; the patterns of opcode_table.json) -/

theorem test_decode_init : decode (.request 0b0001_1111_1111_1111_1111) = .init 0xFF 0xFF := by decide
theorem test_decode_sendCommand : decode (.request 0b0010_1010_0101_1100_0011) = .sendCommand 0xA5 0xC3 := by decide
theorem test_decode_sendData : decode (.request 0b0011_0000_0000_0100_0001) = .sendData 0x00 0x41 := by decide
theorem test_decode_setCursor : decode (.request 0b0100_0000_0001_0000_0101) = .setCursor 0x01 0x05 := by decide
theorem test_decode_clear : decode (.request 0b0101_1010_1011_1100_1101) = .clear 0xAB 0xCD := by decide
theorem test_decode_reserved0 : decode (.request 0b0000_1111_1111_1111_1111) = .reserved0 0xFF 0xFF := by decide
theorem test_decode_reserved6 : decode (.request 0b0110_1010_1011_1100_1101) = .reserved6 0xAB 0xCD := by decide
theorem test_decode_reserved7 : decode (.request 0b0111_0000_0000_0000_0001) = .reserved7 0x00 0x01 := by decide
theorem test_decode_reserved8 : decode (.request 0b1000_1111_1111_1111_1111) = .reserved8 0xFF 0xFF := by decide
theorem test_decode_reserved9 : decode (.request 0b1001_1000_0000_0000_0000) = .reserved9 0x80 0x00 := by decide
theorem test_decode_reservedA : decode (.request 0b1010_0000_0001_0000_0001) = .reservedA 0x01 0x01 := by decide
theorem test_decode_reservedB : decode (.request 0b1011_0000_0001_1000_0000) = .reservedB 0x01 0x80 := by decide
theorem test_decode_reservedC : decode (.request 0b1100_0000_0010_0000_0001) = .reservedC 0x02 0x01 := by decide
theorem test_decode_reservedD : decode (.request 0b1101_0000_0100_0000_0001) = .reservedD 0x04 0x01 := by decide
theorem test_decode_reservedE : decode (.request 0b1110_0000_1000_0000_0001) = .reservedE 0x08 0x01 := by decide
theorem test_decode_reservedF : decode (.request 0b1111_0000_0000_0000_0010) = .reservedF 0x00 0x02 := by decide
theorem test_decode_lcdNoInstruction : decode (.lcdByte 0b00000000) = .lcdNoInstruction := by decide
theorem test_decode_lcdClearDisplay : decode (.lcdByte 0b00000001) = .lcdClearDisplay := by decide
theorem test_decode_lcdReturnHome : decode (.lcdByte 0b00000011) = .lcdReturnHome 1 := by decide
theorem test_decode_lcdEntryModeSet : decode (.lcdByte 0b00000110) = .lcdEntryModeSet 1 0 := by decide
theorem test_decode_lcdDisplayControl : decode (.lcdByte 0b00001101) = .lcdDisplayControl 1 0 1 := by decide
theorem test_decode_lcdCursorDisplayShift : decode (.lcdByte 0b00011010) = .lcdCursorDisplayShift 1 0 0b10 := by decide
theorem test_decode_lcdFunctionSet : decode (.lcdByte 0b00101001) = .lcdFunctionSet 0 1 0 0b01 := by decide
theorem test_decode_lcdSetCgramAddress : decode (.lcdByte 0b01100001) = .lcdSetCgramAddress 0b100001 := by decide
theorem test_decode_lcdSetDdramAddress : decode (.lcdByte 0b11000101) = .lcdSetDdramAddress 0b1000101 := by decide

/-- Encoding of the bytes INIT composes (R95, R97 to R99). -/
theorem test_encode_init_bytes :
    encode (.lcdReturnHome 0) = .lcdByte 0x02 ∧ encode (.lcdFunctionSet 0 1 0 0) = .lcdByte 0x28
      ∧ encode (.lcdDisplayControl 1 0 0) = .lcdByte 0x0C ∧ encode (.lcdEntryModeSet 1 0) = .lcdByte 0x06
      ∧ encode .lcdClearDisplay = .lcdByte 0x01 := by decide

/-- The order of the bits the table leaves free in the shift row, `0001SRxx`. -/
theorem test_encode_shift : encode (.lcdCursorDisplayShift 1 0 0b01) = .lcdByte 0x19 := by decide

/-- The encoder against 2.0's words. -/
theorem test_encode_requests :
    encode (.sendCommand 0xA5 0xC3) = .request 0x2A5C3 ∧ encode (.setCursor 0x02 0x05) = .request 0x40205 := by decide

theorem test_table_word : decodeTableWord 24 0x40105 = some (.setCursor 1 5) := rfl
theorem test_table_word_rejects : decodeTableWord 24 0x140105 = none := rfl

/-! ### The assembler (R106 to R108) -/

theorem test_asm_cursor :
    assembleLine ['C', 'U', 'R', 'S', 'O', 'R', ' ', '1', ',', ' ', '5', ' ', ';', 'x'] = some [0x40105] := by decide
theorem test_asm_cmd_hex : assembleLine ['C', 'M', 'D', ' ', '0', 'x', '2', '8'] = some [0x22800] := by decide
theorem test_asm_data_char : assembleLine ['D', 'A', 'T', 'A', ' ', '\'', 'A', '\''] = some [0x34100] := by decide
theorem test_asm_print : assembleLine ['P', 'R', 'I', 'N', 'T', ' ', '"', 'A', 'B', '"'] = some [0x34100, 0x34200] := by
  decide
theorem test_asm_print_empty : assembleLine ['P', 'R', 'I', 'N', 'T', ' ', '"', '"'] = some [] := by decide
theorem test_asm_req : assembleLine ['.', 'r', 'e', 'q', ' ', '0', 'x', '6', 'A', 'B', 'C', 'D'] = some [0x6ABCD] := by
  decide
theorem test_asm_bare :
    assembleLine ['I', 'N', 'I', 'T'] = some [0x10000] ∧ assembleLine ['C', 'L', 'E', 'A', 'R'] = some [0x50000]
      ∧ assembleLine ['H', 'O', 'M', 'E'] = some [0x20200] := by decide
theorem test_asm_rejects :
    assembleLine ['C', 'M', 'D', ' ', '2', '5', '6'] = none ∧ assembleLine ['C', 'M', 'D'] = none
      ∧ assembleLine ['H', 'O', 'M', 'E', ' ', '1'] = none := by decide
/-- The second program of 95_test_vectors.md 3.2, one line a request. -/
theorem test_asm_text :
    assembleText [['D', 'A', 'T', 'A', ' ', '0', 'x', '2', '1', ';', '!'], [], ['C', 'L', 'E', 'A', 'R']]
      = some [0x32100, 0x50000] := by decide

/-! ### Plans (95_test_vectors.md 2.2 to 2.7) -/

theorem test_plan_cmd :
    planOfWord 0x2A500 = [.write 0xAC, .write 0xA8, .write 0x5C, .write 0x58, .delay 2] := by decide
theorem test_plan_cmd_ignores_b :
    planOfWord 0x228AB = [.write 0x2C, .write 0x28, .write 0x8C, .write 0x88, .delay 2] := by decide
theorem test_plan_data : planOfWord 0x34100 = [.write 0x4D, .write 0x49, .write 0x1D, .write 0x19] := by decide
theorem test_plan_cursor_row1 :
    planOfWord 0x40105 = [.write 0xCC, .write 0xC8, .write 0x5C, .write 0x58, .delay 2] := by decide
theorem test_plan_cursor_wraps :
    planOfWord 0x40081 = [.write 0x0C, .write 0x08, .write 0x1C, .write 0x18, .delay 2]
      ∧ planOfWord 0x401FF = [.write 0xBC, .write 0xB8, .write 0xFC, .write 0xF8, .delay 2] := by decide
theorem test_plan_clear :
    planOfWord 0x5FFFF = [.write 0x0C, .write 0x08, .write 0x1C, .write 0x18, .delay 2] := by decide
theorem test_plan_init :
    (planOfWord 0x1FFFF).length = 26 ∧ (planOfWord 0x1FFFF)[0]? = some (.delay 15)
      ∧ (planOfWord 0x1FFFF)[8]? = some (.write 0x8C) ∧ (planOfWord 0x1FFFF)[18]? = some (.write 0x6C)
      ∧ (planOfWord 0x1FFFF)[25]? = some (.delay 2) := by decide
theorem test_plan_empty :
    planOfWord 0x4FF00 = [] ∧ planOfWord 0x8FFFF = [] ∧ planOfWord 0xA0101 = [] := by decide

/-! ### Frames (95_test_vectors.md 2.9) -/

theorem test_frame_decoder :
    lcdBytes [0x0C, 0x08, 0x1C, 0x18, 0x4D, 0x49, 0x1D, 0x19] = [⟨0x01, .command⟩, ⟨0x41, .data⟩] := by decide
theorem test_frame_decoder_nibbles :
    latchedNibbles [0x0C, 0xFC, 0xF8] = [⟨0xF, .command⟩] ∧ latchedNibbles [0x0C, 0x08, 0x1C] = [⟨0x0, .command⟩]
      ∧ latchedNibbles [0x08, 0x0C] = [] := by decide
/-- A failed write is no write (R176): without the first byte's last one, the first byte is not read. -/
theorem test_frame_decoder_failed :
    lcdView 0x27 [.write 0x27 0x19 (some .fail), .write 0x27 0x1D (some .ok), .write 0x27 0x49 (some .ok),
      .write 0x27 0x4D (some .ok)] = [] := by decide
theorem test_frame_reading : LcdByte.instr ⟨0x28, .command⟩ = some (.lcdFunctionSet 0 1 0 0) := by decide

/-! ### One step on small states -/

/-- The registers after a reset with `cfg_addr = 0x27`, the start of the spec's programs. -/
def testRegs : Regs := Regs.reset 0x27

/-- An idle engine that is about to see these inputs. -/
def idle (inputs : List Inputs) : State := { regs := testRegs, inputs := inputs, history := [] }

/-- An engine inside a request, with the given step index, pending bit and result so far. -/
def inside (op : Opcode) (a b : Byte) (k : StepIndex) (pend : Bool) (res : ResultBits) (inputs : List Inputs)
    (history : List HistoryItem) : State :=
  { regs := { testRegs with busy := true, op := op, a := a, b := b, step := k, pend := pend, res := res }
    inputs := inputs, history := history }

/-- The next state, if there is one. -/
def after (o : Host.Outcome State Fault Refusal) : Option State :=
  match o with
  | .next t => some t
  | .fault _ => none
  | .refused _ => none

/-- The cycle in which `rst` is asserted. -/
def resetting (addr : BusAddr) : Inputs := { Inputs.quiet with rst := true, cfgAddr := addr }

/-- The cycle in which an outstanding event is completed, with this `bw_fail`. -/
def completing (fail : Bool) : Inputs := { Inputs.quiet with bwDone := true, bwFail := fail, dlDone := true }

/-- A cycle in which the engine idles (log 2). -/
def stalling : Inputs := { Inputs.quiet with stall := true }

/-- 2.10 row 1. -/
theorem test_accept :
    (after (step (idle [Inputs.present 0x20100]))).map
        (fun t => (t.regs.busy, t.regs.op, t.regs.a, t.regs.step, t.regs.pend, t.regs.res))
      = some (true, 0x2, 0x01, 0, false, 0b000) := by decide
/-- 2.0: the results loaded at Accept. -/
theorem test_accept_res :
    (after (step (idle [Inputs.present 0x4FF00]))).map (·.regs.res) = some 0b010
      ∧ (after (step (idle [Inputs.present 0x60000]))).map (·.regs.res) = some 0b100
      ∧ (after (step (idle [Inputs.present 0x40105]))).map (·.regs.res) = some 0b000 := by decide
/-- 2.10 row 6: `W(0x1C)` is presented. -/
theorem test_issue :
    (after (step (inside 0x2 0x01 0 2 false 0 [] []))).map
        (fun t => (t.regs.pend, t.regs.step, (outputs t.regs).bwValid, (outputs t.regs).bwAddr, (outputs t.regs).bwData))
      = some (true, 2, true, 0x27, 0x1C) := by decide
/-- 2.8: a failed write sets BUSFAIL and the plan goes on. -/
theorem test_complete_fail :
    (after (step (inside 0x2 0x28 0 1 true 0 [completing true] [.write 0x27 0x28 none]))).map
        (fun t => (t.regs.pend, t.regs.step, t.regs.res, t.history))
      = some (false, 2, 0b001, [.write 0x27 0x28 (some .fail)]) := by decide
/-- 2.8: a later `ok` does not clear it (R204). -/
theorem test_complete_ok_keeps_busfail :
    (after (step (inside 0x2 0x28 0 2 true 1 [completing false] [.write 0x27 0x8C none]))).map (·.regs.res)
      = some 0b001 := by decide
/-- R32: `bw_done` is ignored while a delay is outstanding. -/
theorem test_stray_done :
    (after (step (inside 0x5 0 0 4 true 0 [{ Inputs.quiet with bwDone := true, bwFail := true }] [.delay 2 false]))).map
        (fun t => (t.regs.pend, t.regs.step, t.regs.res))
      = some (true, 4, 0b000) := by decide
/-- 2.10 row 12. -/
theorem test_respond :
    (after (step (inside 0x4 0x02 0x03 0 false 0b010 [Inputs.present 0x10000] []))).map
        (fun t => (t.regs.busy, t.regs.rspv, t.regs.rspr, t.regs.op))
      = some (false, true, 0b010, 0x4) := by decide
/-- 2.11: reset during INIT with `W(0x8C)` outstanding. -/
theorem test_reset :
    (after (step (inside 0x1 0 0 8 true 1 [resetting 0x3F] [.write 0x27 0x8C none]))).map (·.regs)
      = some (Regs.reset 0x3F) := by decide
/-- R30: the pulse is one cycle, also when a request is accepted at once. -/
theorem test_pulse_cleared :
    (after (step { idle [Inputs.present 0x50000] with regs := { testRegs with rspv := true, rspr := 1 } })).map
        (fun t => (t.regs.rspv, t.regs.rspr, t.regs.busy))
      = some (false, 1, true) := by decide
/-- An LCD byte placed for the next step is accepted as SEND_COMMAND of the byte (log 7). -/
theorem test_placed_lcd_byte :
    (after (step ((idle []).withFetchWord 8 0x28))).map (fun t => (t.regs.op, t.regs.a, t.regs.b)) = some (0x2, 0x28, 0) := by
  decide

/-! ### Witnesses: states and operands that meet the hypotheses of the statements, one theorem a statement -/

/-- The hypotheses of an Issue at event `e` of `plan`. -/
abbrev ReadyToIssue (s : State) (plan : List PlanEvent) (e : PlanEvent) : Prop :=
  s.now.rst = false ∧ s.now.stall = false ∧ s.regs.busy = true ∧ s.regs.pend = false
    ∧ plan[s.regs.step.toNat]? = some e

/-- The hypotheses of a Complete of event `e` of `plan`, recorded as `item`. -/
abbrev ReadyToComplete (s : State) (plan : List PlanEvent) (e : PlanEvent) (item : HistoryItem) : Prop :=
  s.now.rst = false ∧ s.regs.busy = true ∧ s.regs.pend = true ∧ plan[s.regs.step.toNat]? = some e
    ∧ s.history = item :: [] ∧ s.now.bwDone = true ∧ s.now.dlDone = true

/-- The hypotheses of a Respond at the end of `plan`. -/
abbrev ReadyToRespond (s : State) (plan : List PlanEvent) : Prop :=
  s.now.rst = false ∧ s.now.stall = false ∧ s.regs.busy = true ∧ s.regs.pend = false
    ∧ s.regs.step.toNat = plan.length

theorem witness_OpcodeBitsAloneSelectTheRequest :
    (0x2A5C3#20).extractLsb' 16 4 = (0x20000#20).extractLsb' 16 4
      ∧ (decodeRequest 0x2A5C3#20).opcode = (decodeRequest 0x20000#20).opcode := by decide

theorem witness_AssembledWordsDecodeToTheirRequests_operands :
    (AsmNum.num 0).wf = true ∧ (AsmNum.num 255).wf = true ∧ (AsmNum.chr 0x20).wf = true ∧ (AsmNum.chr 0x7E).wf = true
      ∧ (0 ≤ 255 ∧ 255 ≤ 255) ∧ (0x20 ≤ 0x20 ∧ 0x20 ≤ 0x7E ∧ 0x7E ≤ 0x7E) := by decide
theorem witness_AssembledWordsDecodeToTheirRequests_text : ∀ c ∈ [0, 0x41, 255], c ≤ 255 := by decide
theorem witness_AssembledWordsDecodeToTheirRequests_unused :
    (AsmLine.cmd (.num 255)).assemble = some [0x2FF00] ∧ (∀ w, AsmLine.cmd (.num 255) ≠ .req w)
      ∧ 0x2FF00 ∈ [0x2FF00#20] := ⟨rfl, nofun, by decide⟩

theorem witness_ResetEdgeGivesResetValues : (inside 0x1 0 0 8 true 1 [resetting 0x3F] []).now.rst = true := by decide

theorem witness_IdleEngineIssuesNothing :
    (idle [Inputs.quiet, stalling]).regs.busy = false
      ∧ ∀ i ∈ (idle [Inputs.quiet, stalling]).inputs, i.rst = false ∧ i.reqValid = false := by decide
theorem witness_IdleEngineIssuesNothing_reset :
    (inside 0x1 0 0 8 true 1 [resetting 0x3F, Inputs.quiet] []).now.rst = true
      ∧ ∀ i ∈ (inside 0x1 0 0 8 true 1 [resetting 0x3F, Inputs.quiet] []).inputs.tail,
          i.rst = false ∧ i.reqValid = false := by decide

theorem witness_AddressChangesOnlyAtReset_steps :
    (∃ t, step (idle [resetting 0x20]) = .next t) ∧ (∃ t, step (idle [Inputs.quiet]) = .next t) := ⟨⟨_, rfl⟩, ⟨_, rfl⟩⟩
theorem witness_AddressChangesOnlyAtReset_port :
    (idle [Inputs.quiet]).inputs = Inputs.quiet :: [] ∧ Inputs.quiet.rst = false := by decide
theorem witness_AddressChangesOnlyAtReset_write :
    (after (step (inside 0x2 0x01 0 0 false 0 [] []))).map (·.history)
      = some (.write 0x27 0x0C none :: (inside 0x2 0x01 0 0 false 0 [] []).history) := by decide

theorem witness_StepRunsTheCurrentInstruction :
    (inside 0x1 0 0 0 false 0 [] []).now.rst = false ∧ (inside 0x1 0 0 0 false 0 [] []).regs.busy = true
      ∧ (idle [Inputs.present 0xFFFFF]).now.rst = false ∧ (idle [Inputs.present 0xFFFFF]).regs.busy = false
      ∧ (idle [Inputs.present 0xFFFFF]).now.reqValid = true
      ∧ (idle []).now.rst = false ∧ (idle []).regs.busy = false ∧ (idle []).now.reqValid = false := by decide

/-- For every request word. -/
theorem witness_AcceptLatchesTheRequest (w : BitVec 20) :
    (idle [Inputs.present w]).now.rst = false ∧ (idle [Inputs.present w]).regs.busy = false
      ∧ (idle [Inputs.present w]).now.reqValid = true ∧ (idle [Inputs.present w]).now.reqWord = w := ⟨rfl, rfl, rfl, rfl⟩
theorem witness_AcceptLatchesTheRequest_busy :
    (inside 0x3 0x41 0 0 false 0 [Inputs.present 0x10000] []).regs.busy = true
      ∧ (inside 0x3 0x41 0 0 false 0 [Inputs.present 0x10000] []).inputs = Inputs.present 0x10000 :: [] := by decide

theorem witness_IssuePresentsTheEvent :
    ReadyToIssue (inside 0x1 0 0 24 false 0 [] []) (planOf 0x1 0 0) (.write 0x18)
      ∧ ReadyToIssue (inside 0x1 0 0 25 false 0 [] []) (planOf 0x1 0 0) (.delay 2) := by decide
theorem witness_IssuePresentsTheEvent_ports :
    (inside 0x1 0 0 24 true 0 [] []).regs.busy = true ∧ (inside 0x1 0 0 24 true 0 [] []).regs.pend = true
      ∧ (planOf 0x1 0 0)[24]? = some (.write 0x18)
      ∧ (inside 0x1 0 0 25 true 0 [] []).regs.busy = true ∧ (inside 0x1 0 0 25 true 0 [] []).regs.pend = true
      ∧ (planOf 0x1 0 0)[25]? = some (.delay 2) := by decide

theorem witness_CompleteAdvancesTheStep :
    ReadyToComplete (inside 0x1 0 0 24 true 0 [completing true] [.write 0x27 0x18 none]) (planOf 0x1 0 0)
        (.write 0x18) (.write 0x27 0x18 none)
      ∧ ReadyToComplete (inside 0x1 0 0 25 true 0 [completing false] [.delay 2 false]) (planOf 0x1 0 0) (.delay 2)
          (.delay 2 false) := by decide

theorem witness_UnansweredEventWaitsForEver :
    (inside 0x3 0x41 0 3 true 0 [Inputs.quiet, Inputs.present 0x10000] []).regs.busy = true
      ∧ (inside 0x3 0x41 0 3 true 0 [Inputs.quiet, Inputs.present 0x10000] []).regs.pend = true
      ∧ ∀ i ∈ (inside 0x3 0x41 0 3 true 0 [Inputs.quiet, Inputs.present 0x10000] []).inputs,
          i.rst = false ∧ i.bwDone = false ∧ i.dlDone = false := by decide

theorem witness_RespondPulsesTheResult :
    ReadyToRespond (inside 0x1 0 0 26 false 1 [] []) (planOf 0x1 0 0) := by decide
theorem witness_RespondPulsesTheResult_idle : ∃ t, step (idle [Inputs.present 0x10000]) = .next t := ⟨_, rfl⟩
theorem witness_RespondPulsesTheResult_empty :
    (idle [Inputs.present 0x40203]).now.rst = false ∧ (idle [Inputs.present 0x40203]).regs.busy = false
      ∧ (idle [Inputs.present 0x40203]).now.reqValid = true ∧ planOf 0x4 0x02 0x03 = []
      ∧ (after (step (idle [Inputs.present 0x40203]))).map (fun t => (t.now.rst, t.now.stall)) = some (false, false) := by
  decide

theorem witness_RequestPortIsIgnoredWhileBusy :
    (inside 0x3 0x41 0 0 false 0 [Inputs.quiet] []).regs.busy = true
      ∧ (inside 0x3 0x41 0 0 false 0 [Inputs.quiet] []).inputs = Inputs.quiet :: [] := by decide
theorem witness_RequestPortIsIgnoredWhileBusy_idle :
    (idle [Inputs.quiet]).inputs = Inputs.quiet :: [] ∧ Inputs.quiet.reqValid = false
      ∧ (idle [resetting 0x27]).inputs = resetting 0x27 :: [] ∧ (resetting 0x27).rst = true := by decide

theorem witness_StrayDoneIsIgnored :
    (idle [Inputs.quiet]).inputs = Inputs.quiet :: []
      ∧ (outputs (inside 0x5 0 0 4 true 0 [Inputs.quiet] []).regs).bwValid = false
      ∧ (outputs (inside 0x5 0 0 3 true 0 [Inputs.quiet] []).regs).dlValid = false := by decide

theorem witness_StepCounterAdvancesByOne_reset :
    (idle [resetting 0x20]).regs.Inv ∧ (idle [resetting 0x20]).now.rst = true := by decide
theorem witness_StepCounterAdvancesByOne_idle :
    (idle [Inputs.present 0x10000]).regs.Inv ∧ (idle [Inputs.present 0x10000]).now.rst = false := by decide
theorem witness_StepCounterAdvancesByOne_busy :
    (inside 0x1 0 0 25 true 0 [completing false] []).regs.Inv
      ∧ (inside 0x1 0 0 25 true 0 [completing false] []).now.rst = false := by decide
theorem witness_StepCounterAdvancesByOne_end : (inside 0x1 0 0 26 false 0 [] []).regs.Inv := by decide
theorem witness_StepCounterAdvancesByOne_steps :
    (∃ t, step (idle [resetting 0x20]) = .next t) ∧ (∃ t, step (idle [Inputs.present 0x10000]) = .next t)
      ∧ (∃ t, step (inside 0x1 0 0 25 true 0 [completing false] []) = .next t) := ⟨⟨_, rfl⟩, ⟨_, rfl⟩, ⟨_, rfl⟩⟩
theorem witness_StepCounterAdvancesByOne_ports :
    (outputs (inside 0x1 0 0 24 true 0 [] []).regs).bwValid = true
      ∧ (outputs (inside 0x1 0 0 25 true 0 [] []).regs).dlValid = true := by decide
theorem witness_StepCounterAdvancesByOne_issue :
    (after (step (inside 0x1 0 0 24 false 0 [] []))).map (·.history) = some [.write 0x27 0x18 none]
      ∧ (after (step (inside 0x1 0 0 25 false 0 [] []))).map (·.history) = some [.delay 2 false] := by decide

/-- An idle engine accepts; the clauses of `RunsRequest` inside INIT. -/
theorem witness_InitRunsItsPlan :
    (idle []).regs.busy = false
      ∧ ReadyToIssue (inside 0x1 0 0 1 false 0 [] []) (planOf 0x1 0 0) (.write 0x0C)
      ∧ ReadyToIssue (inside 0x1 0 0 0 false 0 [] []) (planOf 0x1 0 0) (.delay 15)
      ∧ ReadyToComplete (inside 0x1 0 0 24 true 0 [completing false] [.write 0x27 0x18 none]) (planOf 0x1 0 0)
          (.write 0x18) (.write 0x27 0x18 none)
      ∧ ReadyToComplete (inside 0x1 0 0 24 true 0 [completing true] [.write 0x27 0x18 none]) (planOf 0x1 0 0)
          (.write 0x18) (.write 0x27 0x18 none)
      ∧ ReadyToComplete (inside 0x1 0 0 25 true 0 [completing false] [.delay 2 false]) (planOf 0x1 0 0) (.delay 2)
          (.delay 2 false)
      ∧ ReadyToRespond (inside 0x1 0 0 26 false 0 [] []) (planOf 0x1 0 0) := by decide

theorem witness_SendCommandRunsItsPlan :
    ReadyToIssue (inside 0x2 0x28 0 0 false 0 [] []) (planOf 0x2 0x28 0) (.write 0x2C)
      ∧ ReadyToIssue (inside 0x2 0x28 0 4 false 0 [] []) (planOf 0x2 0x28 0) (.delay 2)
      ∧ ReadyToComplete (inside 0x2 0x28 0 3 true 0 [completing false] [.write 0x27 0x88 none]) (planOf 0x2 0x28 0)
          (.write 0x88) (.write 0x27 0x88 none)
      ∧ ReadyToComplete (inside 0x2 0x28 0 3 true 0 [completing true] [.write 0x27 0x88 none]) (planOf 0x2 0x28 0)
          (.write 0x88) (.write 0x27 0x88 none)
      ∧ ReadyToComplete (inside 0x2 0x28 0 4 true 0 [completing false] [.delay 2 false]) (planOf 0x2 0x28 0) (.delay 2)
          (.delay 2 false)
      ∧ ReadyToRespond (inside 0x2 0x28 0 5 false 1 [] []) (planOf 0x2 0x28 0) := by decide

/-- SEND_DATA has no delay (R137): the clauses about delays have no instance. -/
theorem witness_SendDataRunsItsPlan :
    ReadyToIssue (inside 0x3 0x41 0 0 false 0 [] []) (planOf 0x3 0x41 0) (.write 0x4D)
      ∧ ReadyToComplete (inside 0x3 0x41 0 3 true 0 [completing false] [.write 0x27 0x19 none]) (planOf 0x3 0x41 0)
          (.write 0x19) (.write 0x27 0x19 none)
      ∧ ReadyToComplete (inside 0x3 0x41 0 3 true 0 [completing true] [.write 0x27 0x19 none]) (planOf 0x3 0x41 0)
          (.write 0x19) (.write 0x27 0x19 none)
      ∧ ReadyToRespond (inside 0x3 0x41 0 4 false 0 [] []) (planOf 0x3 0x41 0) := by decide

theorem witness_SetCursorRunsItsPlan :
    ReadyToIssue (inside 0x4 0 0xFF 0 false 0 [] []) (planOf 0x4 0 0xFF) (.write 0x7C)
      ∧ ReadyToIssue (inside 0x4 1 5 4 false 0 [] []) (planOf 0x4 1 5) (.delay 2)
      ∧ ReadyToComplete (inside 0x4 1 5 2 true 0 [completing true] [.write 0x27 0x5C none]) (planOf 0x4 1 5)
          (.write 0x5C) (.write 0x27 0x5C none)
      ∧ ReadyToComplete (inside 0x4 1 5 4 true 0 [completing false] [.delay 2 false]) (planOf 0x4 1 5) (.delay 2)
          (.delay 2 false)
      ∧ ReadyToRespond (inside 0x4 1 5 5 false 1 [] []) (planOf 0x4 1 5)
      ∧ (0x02#8 ≠ 0 ∧ 0x02#8 ≠ 1) ∧ ReadyToRespond (inside 0x4 2 3 0 false 2 [] []) (planOf 0x4 2 3) := by decide

theorem witness_ClearRunsItsPlan :
    ReadyToIssue (inside 0x5 0 0 0 false 0 [] []) (planOf 0x5 0 0) (.write 0x0C)
      ∧ ReadyToIssue (inside 0x5 0 0 4 false 0 [] []) (planOf 0x5 0 0) (.delay 2)
      ∧ ReadyToComplete (inside 0x5 0 0 1 true 0 [completing true] [.write 0x27 0x08 none]) (planOf 0x5 0 0)
          (.write 0x08) (.write 0x27 0x08 none)
      ∧ ReadyToComplete (inside 0x5 0 0 4 true 0 [completing false] [.delay 2 false]) (planOf 0x5 0 0) (.delay 2)
          (.delay 2 false)
      ∧ ReadyToRespond (inside 0x5 0 0 5 false 0 [] []) (planOf 0x5 0 0) := by decide

/-- The empty plan has no event: only Accept and Respond have an instance (R85). -/
theorem witness_ReservedOpcodesRunTheEmptyPlan :
    (idle []).regs.busy = false
      ∧ ∀ op ∈ [0x0#4, 0x6#4, 0x7#4, 0x8#4, 0x9#4, 0xA#4, 0xB#4, 0xC#4, 0xD#4, 0xE#4, 0xF#4],
          ReadyToRespond (inside op 0xAB 0xCD 0 false 0b100 [] []) (planOf op 0xAB 0xCD) := by decide

theorem witness_LcdCommandBytesRunAsSendCommand :
    ∀ v ∈ [0x00#8, 0x01#8, 0x02#8, 0x06#8, 0x0C#8, 0x10#8, 0x28#8, 0x40#8, 0xFF#8],
      ReadyToIssue (inside 0x2 v 0 4 false 0 [] []) (cmdPlan v) (.delay 2)
        ∧ ReadyToRespond (inside 0x2 v 0 5 false 0 [] []) (cmdPlan v) := by decide

/-- Each clause of the frame: a busy engine, a response given, none given. -/
theorem witness_InstructionsLeaveTheRestUnchanged :
    (after (exec (.clear 0 0) (inside 0x5 0 0 5 false 1 [] []))).map (fun t => (t.regs.rspv, t.regs.busy))
        = some (true, false)
      ∧ (after (exec (.clear 0 0) (inside 0x5 0 0 0 false 1 [] []))).map (·.regs.rspv) = some false := by decide

theorem witness_WrittenBytesAreTheFrameBytes : PlanEvent.write 0x0C ∈ planOf 0x1 0 0 := by decide
theorem witness_DelaysAreFifteenOrTwo :
    (planOf 0x1 0 0)[24]? = some (.write 0x18) ∧ (planOf 0x1 0 0)[25]? = some (.delay 2) := by decide

theorem witness_EnablePulsesComeInPairs :
    (planOf 0x1 0 0)[23]? = some (.write 0x1C) ∧ 0x1C#8 &&& 0x04 = 0x04
      ∧ (planOf 0x1 0 0)[24]? = some (.write 0x18) ∧ 0x18#8 &&& 0x04 = 0 := by decide

theorem witness_ColumnIsNotBoundsChecked : 0x80#8 ≤ 0x80#8 ∧ 0x80#8 ≤ 0xFF#8 ∧ 0x40#8 ≤ 0x40#8 ∧ 0x40#8 ≤ 0xFF#8 := by
  decide

/-- A state of the register invariant with a write outstanding, and its step. -/
theorem witness_StepKeepsTheRegisterInvariant :
    (inside 0x2 0x28 0 3 true 1 [completing false] []).regs.Inv
      ∧ ∃ t, step (inside 0x2 0x28 0 3 true 1 [completing false] []) = .next t := ⟨by decide, ⟨_, rfl⟩⟩

/-- A safe state in the middle of a request: the first write of `CMD 0x28` failed, the second is outstanding. -/
theorem witness_StepKeepsTheHistoryConforming :
    (inside 0x2 0x28 0 1 true 1 [completing false]
        [.write 0x27 0x28 none, .write 0x27 0x2C (some .fail), .accepted 0x22800]).Safe
      ∧ ∃ t, step (inside 0x2 0x28 0 1 true 1 [completing false]
        [.write 0x27 0x28 none, .write 0x27 0x2C (some .fail), .accepted 0x22800]) = .next t :=
  ⟨⟨by decide, 0x27, by decide⟩, _, rfl⟩

theorem witness_StepKeepsTheHistoryItemsLegal :
    (inside 0x2 0x28 0 1 true 1 [] [.respond 0b010, .delay 2 true, .write 0x27 0x2C none]).regs.Inv
      ∧ (∀ item ∈ (inside 0x2 0x28 0 1 true 1 [] [.respond 0b010, .delay 2 true, .write 0x27 0x2C none]).history,
          LegalItem item)
      ∧ ∃ t, step (inside 0x2 0x28 0 1 true 1 [] [.respond 0b010, .delay 2 true, .write 0x27 0x2C none]) = .next t := by
  refine ⟨by decide, ?_, _, rfl⟩
  simp [inside, LegalItem, LegalResult, LegalFrameByte, maskBL, maskRW]

/-- No event at the end of a plan. -/
theorem witness_PortsPresentOneEventAtMost_none :
    (inside 0x2 0x28 0 5 false 0 [] []).regs.Inv ∧ (planOf 0x2 0x28 0)[5]? = none := by decide
theorem witness_PortsPresentOneEventAtMost :
    (inside 0x2 0x28 0 3 true 0 [] []).regs.Inv ∧ (outputs (inside 0x2 0x28 0 3 true 0 [] []).regs).bwValid = true
      ∧ (inside 0x2 0x28 0 4 true 0 [] []).regs.Inv
      ∧ (outputs (inside 0x2 0x28 0 4 true 0 [] []).regs).dlValid = true := by decide

/-- Cycles for one event: as many idle cycles, one Issue, as many cycles of waiting, and its completion; in all of them but
the last the host holds a request. -/
def served (stalls waits : Nat) (fail : Bool) : Completion :=
  { idle := List.replicate stalls { Inputs.present 0x10000 with stall := true }
    issue := Inputs.present 0x10000
    waiting := List.replicate waits (Inputs.present 0x10000)
    done := completing fail }

/-- Cycles for `DATA 0x41`: the third write is answered `fail`, and the engine idles before it responds. -/
def dataSchedule : Schedule :=
  { accept := Inputs.present 0x34100
    events := [served 0 0 false, served 2 1 false, served 0 3 true, served 1 0 false]
    idle := [stalling, { Inputs.present 0x10000 with stall := true }]
    respond := Inputs.present 0x10000 }

/-- Cycles for the same request with the same answers, at other times. -/
def dataScheduleAgain : Schedule :=
  { accept := Inputs.present 0x34100
    events := [served 1 2 false, served 0 0 false, served 0 0 true, served 0 1 false]
    idle := []
    respond := Inputs.quiet }

/-- Cycles for `CURSOR 2, 3`, which has no event. -/
def emptySchedule : Schedule :=
  { accept := Inputs.present 0x40203, events := [], idle := [stalling], respond := Inputs.quiet }

theorem witness_RequestRunsToItsResponse :
    (idle (dataSchedule.cycles ++ [])).regs.busy = false ∧ dataSchedule.Serves 0x34100
      ∧ (idle (dataSchedule.cycles ++ [])).inputs = dataSchedule.cycles ++ [] := ⟨rfl, by decide, rfl⟩
theorem witness_RequestRunsToItsResponse_empty : emptySchedule.Serves 0x40203 := by decide

/-- Two states that differ in an answer given, an answer to come and `BUSFAIL`. -/
theorem witness_AnswersChangeOnlyBusFail :
    (inside 0x2 0x28 0 1 true 1 [completing true] [.write 0x27 0x28 none, .write 0x27 0x2C (some .fail)]).eraseFailures
      = (inside 0x2 0x28 0 1 true 0 [completing false]
          [.write 0x27 0x28 none, .write 0x27 0x2C (some .ok)]).eraseFailures := by decide

theorem witness_RepeatedRequestRepeatsItsEvents :
    (idle (dataSchedule.cycles ++ (dataScheduleAgain.cycles ++ []))).regs.busy = false ∧ dataSchedule.Serves 0x34100
      ∧ dataScheduleAgain.Serves 0x34100 ∧ dataScheduleAgain.fails = dataSchedule.fails
      ∧ (idle (dataSchedule.cycles ++ (dataScheduleAgain.cycles ++ []))).inputs
          = dataSchedule.cycles ++ (dataScheduleAgain.cycles ++ []) := ⟨rfl, by decide, by decide, rfl, rfl⟩

theorem witness_SuccessfulRequestDeliversItsBytes :
    (List.replicate 26 false).length = (planOfWord 0x10000).length
      ∧ anyWriteFailed (planOfWord 0x10000) (List.replicate 26 false) = false := by decide

end Sys2Proof.Tests
end

/-! SUPPORT. The state family (10_state.md): which input ports a step reads (R23, R33), which item a step can add to the
history (R50), and the proofs of its statements. -/

namespace Sys2Proof.Machine

/-! ### The input ports that a step reads -/

/-- The cycles `i` and `j` agree on every port that a step reads: `rst`; with it `cfg_addr` (R23); else, while busy, the
collaborators' answers and `stall`, and while idle `req_valid` and, with it, `req_word` (R33). -/
def Inputs.ReadAlike (busy : Bool) (i j : Inputs) : Prop :=
  j.rst = i.rst ∧
    if i.rst then j.cfgAddr = i.cfgAddr
    else if busy then j.bwDone = i.bwDone ∧ j.bwFail = i.bwFail ∧ j.dlDone = i.dlDone ∧ j.stall = i.stall
    else j.reqValid = i.reqValid ∧ (i.reqValid = true → j.reqWord = i.reqWord)

/-- The sequencer reads the collaborators' answers and `stall`, and no other port. -/
theorem sequencerEdge_eq_of_answers_eq {i j : Inputs} (hdone : j.bwDone = i.bwDone) (hfail : j.bwFail = i.bwFail)
    (hdelay : j.dlDone = i.dlDone) (hstall : j.stall = i.stall) (plan : List PlanEvent) (r : Regs) (rest : List Inputs)
    (h : List HistoryItem) :
    sequencerEdge plan { regs := r, inputs := j :: rest, history := h }
      = sequencerEdge plan { regs := r, inputs := i :: rest, history := h } := by
  obtain ⟨rst, cfgAddr, reqValid, reqWord, bwDone, bwFail, dlDone, stall⟩ := i
  subst hdone hfail hdelay hstall
  rfl

/-- A step does not distinguish cycles that agree on the ports it reads. -/
theorem step_eq_of_readAlike {s : State} {i j : Inputs} {rest : List Inputs} (hs : s.inputs = i :: rest)
    (hij : i.ReadAlike s.regs.busy j) : step { s with inputs := j :: rest } = step s := by
  obtain ⟨r, inputs, h⟩ := s
  cases hs
  obtain ⟨hrst, hports⟩ := hij
  rw [step_eq, step_eq]
  cases hr : i.rst with
  | true =>
    have hcfg : j.cfgAddr = i.cfgAddr := by simpa [hr] using hports
    simp [hrst, hr, hcfg, resetEdge]
  | false =>
    cases hb : r.busy with
    | true =>
      obtain ⟨hdone, hfail, hdelay, hstall⟩ :
          j.bwDone = i.bwDone ∧ j.bwFail = i.bwFail ∧ j.dlDone = i.dlDone ∧ j.stall = i.stall := by
        simpa [hr, hb] using hports
      simp [hrst, hr, sequencerEdge_eq_of_answers_eq hdone hfail hdelay hstall]
    | false =>
      obtain ⟨hvalid, hword⟩ : j.reqValid = i.reqValid ∧ (i.reqValid = true → j.reqWord = i.reqWord) := by
        simpa [hr, hb] using hports
      cases hv : i.reqValid with
      | true => simp [hrst, hr, hb, hvalid, hv, hword hv, accept, State.tick]
      | false => simp [hrst, hr, hb, hvalid, hv, State.tick]

/-! ### What a step does to `ADDR` and to the history -/

/-- The sequencer never writes `ADDR` (R23). -/
@[simp] theorem sequencerEdge_addr (plan : List PlanEvent) (s : State) :
    (sequencerEdge plan s).regs.addr = s.regs.addr := by
  obtain ⟨h, -⟩ | ⟨e, -, -, -, h⟩ | ⟨e, -, -, -, h⟩ | ⟨-, -, -, h⟩ := sequencerEdge_cases plan s <;> simp [h]

/-- An answer changes the newest item and adds none. -/
@[simp] theorem answerNewest_length (e : PlanEvent) (fail : Bool) (items : List HistoryItem) :
    (answerNewest e fail items).length = items.length := by
  unfold answerNewest
  split <;> rfl

theorem answerNewest_ne_cons (e : PlanEvent) (fail : Bool) (items : List HistoryItem) (item : HistoryItem) :
    answerNewest e fail items ≠ item :: items := by
  intro h
  simpa using congrArg List.length h

/-- The sequencer adds an item to the history in Issue, to `ADDR`, and in Respond only. -/
theorem sequencerEdge_new_item {plan : List PlanEvent} {s : State} {item : HistoryItem}
    (h : (sequencerEdge plan s).history = item :: s.history) :
    (∃ e, item = issuedItem s.regs.addr e) ∨ item = .respond s.regs.res := by
  obtain ⟨hs, -⟩ | ⟨e, -, -, -, hs⟩ | ⟨e, -, -, -, hs⟩ | ⟨-, -, -, hs⟩ := sequencerEdge_cases plan s <;> rw [hs] at h
  · simp at h
  · exact .inl ⟨e, (List.cons.inj h).1.symm⟩
  · exact (answerNewest_ne_cons _ _ _ _ h).elim
  · exact .inr (List.cons.inj h).1.symm

/-- The item a step adds to the history, if it adds one: a reset's, an Accept's while idle, or, while busy, the one the
sequencer adds. -/
theorem step_new_item {s t : State} {item : HistoryItem} (hstep : step s = .next t)
    (h : t.history = item :: s.history) :
    item = .reset s.now.cfgAddr
    ∨ (s.regs.busy = false ∧ item = .accepted s.now.reqWord)
    ∨ (s.regs.busy = true ∧ ((∃ e, item = issuedItem s.regs.addr e) ∨ item = .respond s.regs.res)) := by
  obtain ⟨-, rfl⟩ | ⟨-, -, -, rfl⟩ | ⟨-, hb, -, rfl⟩ | ⟨-, hb, rfl⟩ := step_cases hstep
  · exact .inl (List.cons.inj h).1.symm
  · simp at h
  · exact .inr (.inl ⟨hb, by simpa using (List.cons.inj h).1.symm⟩)
  · exact .inr (.inr ⟨hb, sequencerEdge_new_item h⟩)

/-- `ADDR` after a step (R23). -/
theorem step_addr {s t : State} (h : step s = .next t) :
    t.regs.addr = if s.now.rst then s.now.cfgAddr else s.regs.addr := by
  obtain ⟨hr, rfl⟩ | ⟨hr, -, -, rfl⟩ | ⟨hr, -, -, rfl⟩ | ⟨hr, -, rfl⟩ := step_cases h <;> simp [hr]

/-- A busy engine accepts no request (R31). -/
theorem step_busy_history_ne_accepted {s t : State} (hb : s.regs.busy = true) (hstep : step s = .next t) (w : ReqWord) :
    t.history ≠ .accepted w :: s.history := by
  intro h
  obtain hi | ⟨hidle, -⟩ | ⟨-, ⟨e, hi⟩ | hi⟩ := step_new_item hstep h
  · cases hi
  · simp [hb] at hidle
  · cases e <;> cases hi
  · cases hi

/-- A write that a step adds goes to `ADDR` (R51). -/
theorem step_new_write_addr {s t : State} {addr : BusAddr} {data : Byte} {answer : Option Answer}
    (hstep : step s = .next t) (h : t.history = .write addr data answer :: s.history) : addr = s.regs.addr := by
  obtain hi | ⟨-, hi⟩ | ⟨-, ⟨e, hi⟩ | hi⟩ := step_new_item hstep h
  · cases hi
  · cases hi
  · cases e <;> cases hi
    rfl
  · cases hi

/-! ### Issue and the ports of a pending event -/

/-- Issue is the step of a busy engine that has a current event and neither waits nor idles (R28). -/
theorem step_eq_issue {s : State} {e : PlanEvent} (hr : s.now.rst = false) (hs : s.now.stall = false)
    (hb : s.regs.busy = true) (hp : s.regs.pend = false) (he : currentEvent s.regs = some e) :
    step s = .next (issue e s) := by
  have hplan : s.regs.plan[s.regs.step.toNat]? = some e := he
  simp [step_eq, hr, hb, sequencerEdge, hplan, hp, hs]

/-! ### The obligations -/

/-- Settles O11: the cases of a step for `ADDR`; the ports it reads for `cfg_addr`; the item it adds for the writes. -/
theorem addressChangesOnlyAtReset : Obligations.AddressChangesOnlyAtReset := by
  refine ⟨fun s t h => step_addr h, fun s i rest c hs hr => ?_, fun s t addr data => step_new_write_addr⟩
  exact step_eq_of_readAlike hs (by simp [Inputs.ReadAlike, hr])

/-- Settles O14: the step is Issue, and the ports of a pending event are read off the event. -/
theorem issuePresentsTheEvent : Obligations.IssuePresentsTheEvent := by
  refine ⟨fun s e hr hs hb hp he => ?_, fun r e hb hp he => ?_⟩
  · refine ⟨issue e s, step_eq_issue hr hs hb hp he, rfl, rfl, ?_⟩
    cases e <;> rfl
  · have hcur : currentEvent r = some e := he
    cases e <;> simp [outputs, hb, hp, hcur, isWrite, isDelay, writeData, delayMs]

/-- Settles O18: the request port is none of the ports read while busy, `req_word` none of those read without `req_valid`
or in reset; and Accept is a transition of the idle engine. -/
theorem requestPortIsIgnoredWhileBusy : Obligations.RequestPortIsIgnoredWhileBusy := by
  refine ⟨fun s i rest w hs hport => ?_, fun s i rest v w hb hs => ?_, fun s t w hb hstep => ?_⟩
  · refine step_eq_of_readAlike hs ?_
    obtain hb | hv | hr := hport
    · simp [Inputs.ReadAlike, hb]
    · simp [Inputs.ReadAlike, hv]
    · simp [Inputs.ReadAlike, hr]
  · exact step_eq_of_readAlike hs (by simp [Inputs.ReadAlike, hb])
  · exact ⟨by simp [outputs, hb], step_busy_history_ne_accepted hb hstep w⟩

end Sys2Proof.Machine

/-! SUPPORT. The encoding family (30_encoding.md): the request an opcode selects (R84 to R86), the edges of a request that is
run with a plan (R26 to R30), the delays of the plans (R83), and the proofs of its statements. -/

namespace Sys2Proof

/-! ### The request an opcode selects -/

/-- The requests in the order of their opcodes (R84, R85). -/
def requestsByOpcode : List (Byte → Byte → Instr) :=
  [.reserved0, .init, .sendCommand, .sendData, .setCursor, .clear, .reserved6, .reserved7, .reserved8, .reserved9,
    .reservedA, .reservedB, .reservedC, .reservedD, .reservedE, .reservedF]

/-- The request with opcode `op`, as a function of its operands. -/
def Opcode.request (op : Opcode) : Byte → Byte → Instr := requestsByOpcode[op.toNat]'op.isLt

theorem Opcode.request_mem (op : Opcode) : op.request ∈ requestsByOpcode := List.getElem_mem _

/-- The decoder, opcode by opcode (R86). -/
theorem decodeRequest_eq_request (w : ReqWord) : decodeRequest w = w.opcode.request w.argA w.argB := by
  rcases Opcode.cases w.opcode with h | h | h | h | h | h | h | h | h | h | h | h | h | h | h | h
  · rw [decodeRequest_reserved0 h, h]; rfl
  · rw [decodeRequest_init h, h]; rfl
  · rw [decodeRequest_sendCommand h, h]; rfl
  · rw [decodeRequest_sendData h, h]; rfl
  · rw [decodeRequest_setCursor h, h]; rfl
  · rw [decodeRequest_clear h, h]; rfl
  · rw [decodeRequest_reserved6 h, h]; rfl
  · rw [decodeRequest_reserved7 h, h]; rfl
  · rw [decodeRequest_reserved8 h, h]; rfl
  · rw [decodeRequest_reserved9 h, h]; rfl
  · rw [decodeRequest_reservedA h, h]; rfl
  · rw [decodeRequest_reservedB h, h]; rfl
  · rw [decodeRequest_reservedC h, h]; rfl
  · rw [decodeRequest_reservedD h, h]; rfl
  · rw [decodeRequest_reservedE h, h]; rfl
  · rw [decodeRequest_reservedF h, h]; rfl

@[simp] theorem Opcode.opcode_request (op : Opcode) (a b : Byte) : (op.request a b).opcode = op := by
  rcases op.cases with rfl | rfl | rfl | rfl | rfl | rfl | rfl | rfl | rfl | rfl | rfl | rfl | rfl | rfl | rfl | rfl <;> rfl

/-- The row of a request in the opcode table holds its opcode in bits 19..16 and fixes no other bit. -/
@[simp] theorem Opcode.tableRow_request (op : Opcode) (a b : Byte) :
    (op.request a b).tableRow = (op.toNat <<< 16, 0xF0000) := by
  rcases op.cases with rfl | rfl | rfl | rfl | rfl | rfl | rfl | rfl | rfl | rfl | rfl | rfl | rfl | rfl | rfl | rfl <;> rfl

@[simp] theorem decodeRequest_opcode (w : ReqWord) : (decodeRequest w).opcode = w.opcode := by
  rw [decodeRequest_eq_request, Opcode.opcode_request]

@[simp] theorem decodeRequest_tableRow (w : ReqWord) :
    (decodeRequest w).tableRow = (w.opcode.toNat <<< 16, 0xF0000) := by
  rw [decodeRequest_eq_request, Opcode.tableRow_request]

end Sys2Proof

namespace Sys2Proof.Machine

/-! ### The edges of a request that is run with a plan -/

/-- Issue is the edge of the sequencer at an event that is not pending (R28). -/
theorem sequencerEdge_eq_issue {plan : List PlanEvent} {s : State} {e : PlanEvent} (hp : s.regs.pend = false)
    (hs : s.now.stall = false) (he : plan[s.regs.step.toNat]? = some e) : sequencerEdge plan s = issue e s := by
  simp [sequencerEdge, he, hp, hs]

/-- Complete is the edge of the sequencer at a pending event that is answered (R29). -/
theorem sequencerEdge_eq_complete {plan : List PlanEvent} {s : State} {e : PlanEvent} (hp : s.regs.pend = true)
    (he : plan[s.regs.step.toNat]? = some e) (ha : answered e s.now = true) : sequencerEdge plan s = complete e s := by
  simp [sequencerEdge, he, hp, ha]

/-- Respond is the edge of the sequencer at the end of the plan (R30). -/
theorem sequencerEdge_eq_respond {plan : List PlanEvent} {s : State} (hp : s.regs.pend = false)
    (hs : s.now.stall = false) (hend : s.regs.step.toNat = plan.length) : sequencerEdge plan s = respond s := by
  simp [sequencerEdge, hp, hs, hend]

/-- Complete of a write, the newest item of the history: its answer is recorded there and in `BUSFAIL` (R29). -/
theorem complete_write {s : State} {addr : BusAddr} {data : Byte} {older : List HistoryItem}
    (hh : s.history = .write addr data none :: older) :
    complete (.write data) s =
      { regs := { s.regs with
          pend := false, step := s.regs.step + 1, res := resAfterWrite s.regs.res s.now.bwFail, rspv := false }
        inputs := s.inputs.tail
        history := .write addr data (some (answerOf s.now.bwFail)) :: older } := by
  simp [complete, State.tick, hh, answerNewest, resAfterEvent]

/-- Complete of a delay, the newest item of the history (R29). -/
theorem complete_delay {s : State} {ms : Byte} {older : List HistoryItem} (hh : s.history = .delay ms false :: older) :
    complete (.delay ms) s =
      { regs := { s.regs with pend := false, step := s.regs.step + 1, rspv := false }
        inputs := s.inputs.tail
        history := .delay ms true :: older } := by
  simp [complete, State.tick, hh, answerNewest, resAfterEvent]

/-- An instruction that `exec` runs as a request with these fields and this plan has every edge of that request (R26 to
R30). -/
theorem runsRequest_of_exec_eq {i : Instr} {op : Opcode} {a b : Byte} {res : ResultBits} {plan : List PlanEvent}
    (hexec : ∀ s, exec i s = runRequest op a b plan s) (hres : resAtAccept op a = res) :
    RunsRequest i op a b res plan := by
  have hbusy : ∀ s : State, s.regs.busy = true → exec i s = .next (sequencerEdge plan s) := fun s hb => by
    simp [hexec, runRequest, hb]
  exact {
    accepts := fun s hb => by
      subst hres
      simp [hexec, runRequest, hb, accept, State.tick, ReqWord.ofFields]
    issuesWrite := fun s data hb hp hs he => by rw [hbusy s hb, sequencerEdge_eq_issue hp hs he]; rfl
    issuesDelay := fun s ms hb hp hs he => by rw [hbusy s hb, sequencerEdge_eq_issue hp hs he]; rfl
    completesWrite := fun s data older hb hp he hh hd hf => by
      rw [hbusy s hb, sequencerEdge_eq_complete hp he hd, complete_write hh, hf]; rfl
    completesFailedWrite := fun s data older hb hp he hh hd hf => by
      rw [hbusy s hb, sequencerEdge_eq_complete hp he hd, complete_write hh, hf]; rfl
    completesDelay := fun s ms older hb hp he hh hd => by
      rw [hbusy s hb, sequencerEdge_eq_complete hp he hd, complete_delay hh]
    responds := fun s hb hp hs hend => by
      rw [hbusy s hb, sequencerEdge_eq_respond hp hs hend]
      simp [respond, State.tick] }

/-- Accept of a reserved opcode sets `BADOP` and no other bit of `RES` (R27). -/
theorem resAtAccept_of_reserved {op : Opcode} (hop : opIsReserved op = true) (a : Byte) :
    resAtAccept op a = 0b100 := by
  have hcursor : op ≠ 0x4#4 := by
    rintro rfl
    exact absurd hop (by decide)
  simp [resAtAccept, hop, rowIsIgnored, hcursor, resultBits, flagBadOp]

/-- An instruction that `exec` runs as a request with a reserved opcode and the empty plan (R85). -/
theorem runsRequest_of_reserved {i : Instr} {op : Opcode} {a b : Byte} (hop : opIsReserved op = true)
    (hexec : ∀ s, exec i s = runRequest op a b [] s) : RunsRequest i op a b 0b100 [] :=
  runsRequest_of_exec_eq hexec (resAtAccept_of_reserved hop a)

/-! ### The delays of the plans -/

@[simp] theorem delay_notMem_encodeByte (ms v : Byte) (r : RegSelect) : PlanEvent.delay ms ∉ encodeByte v r := by
  simp [encodeByte, framePair]

@[simp] theorem delay_notMem_dataPlan (ms v : Byte) : PlanEvent.delay ms ∉ dataPlan v :=
  delay_notMem_encodeByte ms v .data

@[simp] theorem delay_mem_cmdPlan (ms v : Byte) : PlanEvent.delay ms ∈ cmdPlan v ↔ ms = 2 := by
  simp [cmdPlan, cmdDelayMs]

@[simp] theorem delay_mem_initPlan (ms : Byte) : PlanEvent.delay ms ∈ initPlan ↔ ms = 15 ∨ ms = 2 := by
  simp [initPlan, initDelayMs]

/-- A plan that has a delay is INIT's or a command byte's. -/
theorem delay_eq_of_mem_planOf {ms a b : Byte} {op : Opcode} (h : PlanEvent.delay ms ∈ planOf op a b) :
    ms = 15 ∨ ms = 2 := by
  obtain hp | ⟨v, hp⟩ | ⟨v, hp⟩ | hp := planOf_cases op a b <;> rw [hp] at h
  · exact (delay_mem_initPlan ms).mp h
  · exact .inr ((delay_mem_cmdPlan ms v).mp h)
  · exact (delay_notMem_dataPlan ms v h).elim
  · exact (List.not_mem_nil h).elim

/-! ### The obligations -/

/-- Settles O4: the opcode and the row of the decoded request are functions of bits 19..16 alone, and each of those opcodes
selects one of the sixteen requests. -/
theorem opcodeBitsAloneSelectTheRequest : Obligations.OpcodeBitsAloneSelectTheRequest := by
  refine ⟨fun (w w' : ReqWord) => ?_, fun (w w' : ReqWord) hop => ?_, fun (w : ReqWord) => ?_⟩
  · rw [decodeRequest_opcode, decodeRequest_opcode]; rfl
  · have hop' : w.opcode = w'.opcode := hop
    rw [decodeRequest_tableRow, decodeRequest_tableRow, hop']
  · rw [decodeRequest_eq_request]
    refine List.mem_map_of_mem (f := fun request : Byte → Byte → Instr => request w.argA w.argB) ?_
    exact (List.perm_middle (l₁ := [Instr.init, .sendCommand, .sendData, .setCursor, .clear])).mem_iff.mpr
      w.opcode.request_mem

/-- Settles O27: the reserved opcodes by evaluation at the sixteen; each reserved request is run with the empty plan, and
`BADOP` is what Accept loads for its opcode. -/
theorem reservedOpcodesRunTheEmptyPlan : Obligations.ReservedOpcodesRunTheEmptyPlan := by
  refine ⟨by decide, fun a b => ⟨?_, ?_, ?_, ?_, ?_, ?_, ?_, ?_, ?_, ?_, ?_⟩⟩ <;>
    exact runsRequest_of_reserved (by decide) fun _ => rfl

/-- Settles O33: the delays of the four shapes of a plan, INIT's plan having both; the ports are functions of the current
event. -/
theorem delaysAreFifteenOrTwo : Obligations.DelaysAreFifteenOrTwo := by
  refine ⟨fun ms => ⟨fun ⟨op, a, b, h⟩ => delay_eq_of_mem_planOf h, fun h => ⟨0x1, 0, 0, ?_⟩⟩, fun r => ⟨?_, ?_⟩⟩
  · exact (delay_mem_initPlan ms).mpr h
  · exact fun data he => congrArg writeData he
  · exact fun ms he => congrArg delayMs he

end Sys2Proof.Machine

/-! SUPPORT. The INIT family: what Accept loads into `RES` for a request that is carried out (R27), the command bytes of INIT's
plan (R122), and the proof of its statement. -/

namespace Sys2Proof.Machine

/-- Accept of a request that is neither reserved nor a cursor outside the rows clears all of `RES` (R27). -/
theorem resAtAccept_eq_zero {op : Opcode} {a : Byte} (hop : opIsReserved op = false) (hrow : rowIsIgnored op a = false) :
    resAtAccept op a = 0b000 := by
  simp [resAtAccept, hop, hrow, resultBits]

/-- INIT's plan with its command bytes as numbers (R122): home, function set, display on, entry mode and clear. -/
theorem initPlan_eq_cmdPlans :
    initPlan = [.delay 15] ++ cmdPlan 0x02 ++ cmdPlan 0x28 ++ cmdPlan 0x0C ++ cmdPlan 0x06 ++ cmdPlan 0x01 := rfl

/-- INIT is executed as the request of its opcode with INIT's plan (R121). -/
theorem exec_init (a b : Byte) (s : State) : exec (.init a b) s = runRequest 0x1 a b initPlan s := rfl

/-- Settles O22: INIT has the edges of a request with INIT's plan, and its opcode is neither reserved nor SET_CURSOR's. -/
theorem initRunsItsPlan : Obligations.InitRunsItsPlan := by
  intro a b
  have hres : resAtAccept 0x1 a = 0b000 := resAtAccept_eq_zero (by decide) rfl
  rw [← initPlan_eq_cmdPlans]
  exact runsRequest_of_exec_eq (exec_init a b) hres

end Sys2Proof.Machine

/-! SUPPORT. The command and data family (41_command_data.md): R172's second form of the nibble multiplexer, which rests on a
frame value never having `EN` set (R178), the command and data plans in that form (R131, R136), and the proofs of the
statements. -/

namespace Sys2Proof.Machine

/-! ### The nibble multiplexer in its second form -/

/-- A register select has no `EN` bit. -/
theorem RegSelect.bits_and_not_maskEN (r : RegSelect) : r.bits &&& ~~~maskEN = r.bits := by
  cases r <;> rfl

/-- A frame value has no `EN` bit: a nibble stands in bits 7..4, and the register select has none (R178). -/
theorem frame_and_not_maskEN (x : Byte) (r : RegSelect) :
    ((x &&& 0xF0) ||| r.bits) &&& ~~~maskEN = (x &&& 0xF0) ||| r.bits := by
  have hnibble : (0xF0 : Byte) &&& ~~~maskEN = 0xF0 := rfl
  calc ((x &&& 0xF0) ||| r.bits) &&& ~~~maskEN
      = (x &&& 0xF0 &&& ~~~maskEN) ||| (r.bits &&& ~~~maskEN) := BitVec.and_or_distrib_right
    _ = (x &&& 0xF0) ||| r.bits := by rw [BitVec.and_assoc, hnibble, r.bits_and_not_maskEN]

@[simp] theorem hiFrame_and_not_maskEN (v : Byte) (r : RegSelect) : hiFrame v r &&& ~~~maskEN = hiFrame v r :=
  frame_and_not_maskEN v r

@[simp] theorem loFrame_and_not_maskEN (v : Byte) (r : RegSelect) : loFrame v r &&& ~~~maskEN = loFrame v r :=
  frame_and_not_maskEN (v <<< 4) r

/-- The nibble multiplexer in R172's second form: each frame with enable high, then low. -/
theorem encodeByte_eq_writes (v : Byte) (r : RegSelect) :
    encodeByte v r =
      [.write (hiFrame v r ||| maskBL ||| maskEN), .write (hiFrame v r ||| maskBL),
        .write (loFrame v r ||| maskBL ||| maskEN), .write (loFrame v r ||| maskBL)] := by
  simp [encodeByte, framePair]

/-! ### The frames of the two registers -/

/-- The frames of the command register are the nibbles: its register select is 0 (R131). -/
theorem hiFrame_command (v : Byte) : hiFrame v .command = v &&& 0xF0 := BitVec.or_zero

theorem loFrame_command (v : Byte) : loFrame v .command = (v <<< 4) &&& 0xF0 := BitVec.or_zero

/-- The frames of the data register have `RS` set (R136). -/
theorem hiFrame_data (v : Byte) : hiFrame v .data = (v &&& 0xF0) ||| maskRS := rfl

theorem loFrame_data (v : Byte) : loFrame v .data = ((v <<< 4) &&& 0xF0) ||| maskRS := rfl

/-! ### The two plans in that form -/

/-- The command plan, event by event (R131). -/
theorem cmdPlan_eq_events (v : Byte) :
    cmdPlan v =
      [.write ((v &&& 0xF0) ||| maskBL ||| maskEN), .write ((v &&& 0xF0) ||| maskBL),
        .write (((v <<< 4) &&& 0xF0) ||| maskBL ||| maskEN), .write (((v <<< 4) &&& 0xF0) ||| maskBL), .delay 2] := by
  rw [cmdPlan, encodeByte_eq_writes, hiFrame_command, loFrame_command]
  rfl

/-- The data plan, event by event (R136). -/
theorem dataPlan_eq_events (v : Byte) :
    dataPlan v =
      [.write ((v &&& 0xF0) ||| maskRS ||| maskBL ||| maskEN), .write ((v &&& 0xF0) ||| maskRS ||| maskBL),
        .write (((v <<< 4) &&& 0xF0) ||| maskRS ||| maskBL ||| maskEN),
        .write (((v <<< 4) &&& 0xF0) ||| maskRS ||| maskBL)] := by
  rw [dataPlan, encodeByte_eq_writes, hiFrame_data, loFrame_data]

/-- SEND_COMMAND is executed as the request of its opcode with the command plan of its value (R130). -/
theorem exec_sendCommand (v b : Byte) (s : State) :
    exec (.sendCommand v b) s = runRequest 0x2 v b (cmdPlan v) s := rfl

/-- SEND_DATA is executed as the request of its opcode with the data plan of its value (R135). -/
theorem exec_sendData (v b : Byte) (s : State) :
    exec (.sendData v b) s = runRequest 0x3 v b (dataPlan v) s := rfl

/-! ### The obligations -/

/-- Settles O23: SEND_COMMAND has the edges of a request with the command plan, whose second form is the statement's; its
opcode is neither reserved nor SET_CURSOR's. -/
theorem sendCommandRunsItsPlan : Obligations.SendCommandRunsItsPlan := by
  intro v b
  have hres : resAtAccept 0x2 v = 0b000 := resAtAccept_eq_zero (by decide) rfl
  rw [← cmdPlan_eq_events]
  exact runsRequest_of_exec_eq (exec_sendCommand v b) hres

/-- Settles O24: SEND_DATA has the edges of a request with the data plan, whose second form is the statement's; its opcode is
neither reserved nor SET_CURSOR's. -/
theorem sendDataRunsItsPlan : Obligations.SendDataRunsItsPlan := by
  intro v b
  have hres : resAtAccept 0x3 v = 0b000 := resAtAccept_eq_zero (by decide) rfl
  rw [← dataPlan_eq_events]
  exact runsRequest_of_exec_eq (exec_sendData v b) hres

end Sys2Proof.Machine

/-! SUPPORT. The cursor and clear family (42_cursor_clear.md): which rows Accept marks with `NOCMD` (R27, R152), the plan
with which each of the two requests is run (R151, R156), and the proofs of the statements. -/

namespace Sys2Proof.Machine

/-- SET_CURSOR ignores exactly the rows other than 0 and 1 (R24, R152). -/
@[simp] theorem rowIsIgnored_setCursor (row : Byte) : rowIsIgnored 0x4 row = true ↔ row ≠ 0 ∧ row ≠ 1 := by
  simp [rowIsIgnored]

/-- Accept of a cursor outside the rows sets `NOCMD` and no other bit of `RES` (R27). -/
theorem resAtAccept_of_rowIsIgnored {op : Opcode} {a : Byte} (hop : opIsReserved op = false)
    (hrow : rowIsIgnored op a = true) : resAtAccept op a = 0b010 := by
  simp [resAtAccept, hop, hrow, resultBits, flagNoCmd]

/-- SET_CURSOR is executed as the request of its opcode with the cursor plan of its row and column (R150). -/
theorem exec_setCursor (row column : Byte) (s : State) :
    exec (.setCursor row column) s = runRequest 0x4 row column (cursorPlan row column) s := rfl

/-- CLEAR is executed as the request of its opcode with the clear plan (R155). -/
theorem exec_clear (a b : Byte) (s : State) : exec (.clear a b) s = runRequest 0x5 a b clearPlan s := rfl

/-- The clear plan with its command byte as a number (R156). -/
theorem clearPlan_eq_cmdPlan : clearPlan = cmdPlan 0x01 := rfl

/-- SET_CURSOR has the edges of a request with the cursor plan of its row and column, whatever they are (R150). -/
theorem runsRequest_setCursor {row column : Byte} {res : ResultBits} {plan : List PlanEvent}
    (hres : resAtAccept 0x4 row = res) (hplan : cursorPlan row column = plan) :
    RunsRequest (.setCursor row column) 0x4 row column res plan := by
  rw [← hplan]
  exact runsRequest_of_exec_eq (exec_setCursor row column) hres

/-! ### The obligations -/

/-- Settles O25: rows 0 and 1 clear `RES` at Accept and have the command plan of their base plus the column; every other row
sets `NOCMD` and has the empty plan. -/
theorem setCursorRunsItsPlan : Obligations.SetCursorRunsItsPlan := by
  have hop : opIsReserved 0x4 = false := by decide
  refine ⟨fun column => ?_, fun column => ?_, fun row column h0 h1 => ?_⟩
  · exact runsRequest_setCursor (resAtAccept_eq_zero hop rfl) (cursorPlan_row0 column)
  · exact runsRequest_setCursor (resAtAccept_eq_zero hop rfl) (cursorPlan_row1 column)
  · have hrow : rowIsIgnored 0x4 row = true := (rowIsIgnored_setCursor row).mpr ⟨h0, h1⟩
    exact runsRequest_setCursor (resAtAccept_of_rowIsIgnored hop hrow) (cursorPlan_ignored h0 h1 column)

/-- Settles O26: CLEAR has the edges of a request with the clear plan, which is the command plan of 0x01 (R156); its opcode is
neither reserved nor SET_CURSOR's. -/
theorem clearRunsItsPlan : Obligations.ClearRunsItsPlan := by
  intro a b
  have hres : resAtAccept 0x5 a = 0b000 := resAtAccept_eq_zero (by decide) rfl
  rw [← clearPlan_eq_cmdPlan]
  exact runsRequest_of_exec_eq (exec_clear a b) hres

end Sys2Proof.Machine

/-! SUPPORT. The reset and hazards family (70_reset_and_hazards.md): the steps of reset and of an idle engine without request
(R204, R230, R232), the run of an engine at rest, and the proofs of the statements. -/

namespace Sys2Proof.Machine

/-! ### The two steps -/

/-- A reset edge is the whole step, whatever the state (R204, R231). -/
theorem step_eq_resetEdge {s : State} (hr : s.now.rst = true) : step s = .next (resetEdge s) := by
  simp [step_eq, hr]

/-- An idle engine without reset and request only uses up the cycle (R232). -/
theorem step_eq_tick {s : State} (hr : s.now.rst = false) (hb : s.regs.busy = false) (hv : s.now.reqValid = false) :
    step s = .next s.tick := by
  simp [step_eq, hr, hb, hv]

/-! ### Runs without reset and request -/

/-- No coming cycle has a reset or a request; the other ports are free. -/
def State.Undisturbed (s : State) : Prop := ∀ i ∈ s.inputs, i.rst = false ∧ i.reqValid = false

/-- The coming cycle is a scheduled one or, after the last, a quiet one (log 1). -/
theorem State.Undisturbed.now {s : State} (h : s.Undisturbed) : s.now.rst = false ∧ s.now.reqValid = false := by
  obtain ⟨r, inputs, history⟩ := s
  cases inputs with
  | nil => exact ⟨rfl, rfl⟩
  | cons i rest => exact h i List.mem_cons_self

theorem State.Undisturbed.tick {s : State} (h : s.Undisturbed) : s.tick.Undisturbed :=
  fun i hi => h i (List.mem_of_mem_tail hi)

theorem State.Undisturbed.step_eq_tick {s : State} (h : s.Undisturbed) (hb : s.regs.busy = false) :
    step s = .next s.tick :=
  Machine.step_eq_tick h.now.1 hb h.now.2

theorem tick_regs (s : State) : s.tick.regs = { s.regs with rspv := false } := rfl

/-- `RSPV` is the only register that a cycle without a transition can change (R30). -/
theorem tick_regs_of_rspv {s : State} (hp : s.regs.rspv = false) : s.tick.regs = s.regs := by
  rw [tick_regs, ← hp]

/-- An idle engine whose pulse is over stays as it is for any number of undisturbed edges (R232). -/
theorem run_of_idle {s : State} (h : s.Undisturbed) (hb : s.regs.busy = false) (hp : s.regs.rspv = false) (k : Nat) :
    ∃ t, Host.Core.run Sys2Proof.core k s = .next t ∧ t.regs = s.regs ∧ t.history = s.history := by
  induction k generalizing s with
  | zero => exact ⟨s, rfl, rfl, rfl⟩
  | succ k ih =>
    obtain ⟨t, hrun, hregs, hhist⟩ := ih h.tick hb rfl
    exact ⟨t, (run_succ (h.step_eq_tick hb) k).trans hrun, hregs.trans (tick_regs_of_rspv hp), hhist⟩

/-! ### The obligations -/

/-- Settles O10: one edge, of reset or of the idle engine, leaves the engine idle with its pulse over, and from there the run
changes nothing. -/
theorem idleEngineIssuesNothing : Obligations.IdleEngineIssuesNothing := by
  refine ⟨fun k s hr hin => ?_, fun k s hb hin => ?_⟩
  · have hrest : (resetEdge s).Undisturbed := hin
    obtain ⟨t, hrun, hregs, hhist⟩ := run_of_idle hrest rfl rfl k
    exact ⟨t, (run_succ (step_eq_resetEdge hr) k).trans hrun, hregs, congrArg Regs.busy hregs, hhist⟩
  · have hrest : s.Undisturbed := hin
    obtain ⟨t, hrun, hregs, hhist⟩ := run_of_idle hrest.tick hb rfl k
    exact ⟨t, (run_succ (hrest.step_eq_tick hb) k).trans hrun, hregs, hhist⟩

/-- Settles O9: the step is the reset edge, and the ports are read off the reset values, `BUSY = 0` keeping the two
valid ports of the events low. -/
theorem resetEdgeGivesResetValues : Obligations.ResetEdgeGivesResetValues := by
  intro s hr
  refine ⟨resetEdge s, step_eq_resetEdge hr, rfl, resetEdge_history s, resetEdge_inputs s, ?_⟩
  simp [outputs]

end Sys2Proof.Machine

/-! SUPPORT. The inverse directions of the encoding (30_encoding.md sections 1, 2, 4 and 5): what words built from fields decode to,
the words of the assembler as such words (R106 to R108), and the proofs of the statements about them. -/

namespace Sys2Proof

/-! ### Request words -/

/-- A word built from fields decodes to its opcode's request, with those operands (R80, R86). -/
theorem decodeRequest_ofFields (op : Opcode) (a b : Byte) :
    decodeRequest (ReqWord.ofFields op a b) = op.request a b := by
  rw [decodeRequest_eq_request, ReqWord.opcode_ofFields, ReqWord.argA_ofFields, ReqWord.argB_ofFields]

/-- The encoder puts a request's opcode and operands into the fields (R80). -/
theorem encode_request (op : Opcode) (a b : Byte) : encode (op.request a b) = .request (ReqWord.ofFields op a b) := by
  rcases op.cases with rfl | rfl | rfl | rfl | rfl | rfl | rfl | rfl | rfl | rfl | rfl | rfl | rfl | rfl | rfl | rfl <;> rfl

/-- The encoder gives back every request word (R85). -/
theorem encode_decodeRequest (w : ReqWord) : encode (decodeRequest w) = .request w := by
  rw [decodeRequest_eq_request, encode_request, ReqWord.ofFields_fields]

/-! ### LCD command bytes -/

/-- The encoder gives back every command byte (R101). -/
theorem encode_decodeLcdCommand : ∀ v : Byte, encode (decodeLcdCommand v) = .lcdByte v := by decide

/-- The decoder reads back the fields of each class from its byte (R94 to R101). -/
theorem decodeLcdCommand_returnHome :
    ∀ x : BitVec 1, decodeLcdCommand (lcdReturnHomeByte x) = .lcdReturnHome x := by decide

theorem decodeLcdCommand_entryModeSet :
    ∀ i s : BitVec 1, decodeLcdCommand (lcdEntryModeSetByte i s) = .lcdEntryModeSet i s := by decide

theorem decodeLcdCommand_displayControl :
    ∀ d c b : BitVec 1, decodeLcdCommand (lcdDisplayControlByte d c b) = .lcdDisplayControl d c b := by decide

theorem decodeLcdCommand_cursorDisplayShift :
    ∀ (s r : BitVec 1) (x : BitVec 2),
      decodeLcdCommand (lcdCursorDisplayShiftByte s r x) = .lcdCursorDisplayShift s r x := by decide

theorem decodeLcdCommand_functionSet :
    ∀ (d n f : BitVec 1) (x : BitVec 2), decodeLcdCommand (lcdFunctionSetByte d n f x) = .lcdFunctionSet d n f x := by
  decide

theorem decodeLcdCommand_setCgramAddress :
    ∀ addr : BitVec 6, decodeLcdCommand (lcdSetCgramAddressByte addr) = .lcdSetCgramAddress addr := by decide

theorem decodeLcdCommand_setDdramAddress :
    ∀ addr : BitVec 7, decodeLcdCommand (lcdSetDdramAddressByte addr) = .lcdSetDdramAddress addr := by decide

end Sys2Proof

namespace Sys2Proof.Machine

/-! ### The assembler's words -/

/-- The fields of a word, shifted to their places, make up the word (R80). -/
theorem shifted_fields_eq_ofFields (op : Opcode) (a b : Byte) :
    (op.setWidth 20 <<< 16) ||| (a.setWidth 20 <<< 8) ||| b.setWidth 20 = ReqWord.ofFields op a b := by
  apply BitVec.eq_of_getLsbD_eq
  intro i hi
  rw [ReqWord.getLsbD_ofFields]
  simp only [BitVec.getLsbD_or, BitVec.getLsbD_shiftLeft, BitVec.getLsbD_setWidth, hi, decide_true, Bool.true_and]
  split_ifs with h h'
  · simp [h, show i < 16 by omega]
  · have hb : b.getLsbD i = false := BitVec.getLsbD_of_ge b i (by omega)
    simp [h, h', hb, show i - 8 < 20 by omega]
  · have ha : a.getLsbD (i - 8) = false := BitVec.getLsbD_of_ge a _ (by omega)
    have hb : b.getLsbD i = false := BitVec.getLsbD_of_ge b i (by omega)
    simp [h', ha, hb, show i - 16 < 20 by omega]

/-- The words of the assembler's table are built from fields (R106). -/
theorem wordCursor_eq_ofFields (row column : Byte) : wordCursor row column = ReqWord.ofFields 0x4 row column :=
  shifted_fields_eq_ofFields 0x4 row column

theorem wordCmd_eq_ofFields (v : Byte) : wordCmd v = ReqWord.ofFields 0x2 v 0 := by
  rw [← shifted_fields_eq_ofFields]
  exact BitVec.or_zero.symm

theorem wordData_eq_ofFields (v : Byte) : wordData v = ReqWord.ofFields 0x3 v 0 := by
  rw [← shifted_fields_eq_ofFields]
  exact BitVec.or_zero.symm

/-- The assembler's words decode to the requests of their lines (R106). -/
@[simp] theorem decodeRequest_wordCmd (v : Byte) : decodeRequest (wordCmd v) = .sendCommand v 0 := by
  rw [wordCmd_eq_ofFields, decodeRequest_ofFields]; rfl

@[simp] theorem decodeRequest_wordData (v : Byte) : decodeRequest (wordData v) = .sendData v 0 := by
  rw [wordData_eq_ofFields, decodeRequest_ofFields]; rfl

@[simp] theorem decodeRequest_wordCursor (row column : Byte) :
    decodeRequest (wordCursor row column) = .setCursor row column := by
  rw [wordCursor_eq_ofFields, decodeRequest_ofFields]; rfl

/-- A well-formed line assembles to its words. -/
theorem assemble_of_wf {l : AsmLine} (h : l.wf = true) : l.assemble = some l.words := if_pos h

/-- What a line assembles to are its words. -/
theorem words_of_assemble {l : AsmLine} {ws : List ReqWord} (h : l.assemble = some ws) : l.words = ws := by
  unfold AsmLine.assemble at h
  split_ifs at h
  exact Option.some.inj h

/-- The byte of an operand in range is its number or its code (R106). -/
theorem byte_num {k : Nat} (h : k ≤ 255) : (AsmNum.num k).byte.toNat = k := Nat.mod_eq_of_lt (by omega)

theorem byte_chr {k : Nat} (h : k ≤ 0x7E) : (AsmNum.chr k).byte.toNat = k := Nat.mod_eq_of_lt (by omega)

/-- The assembler writes 0 in every unused field (R81). -/
theorem canonical_of_mem_words {l : AsmLine} (hreq : ∀ w, l ≠ .req w) {w : ReqWord} (hw : w ∈ l.words) :
    (decodeRequest w).canonical = true := by
  cases l with
  | init => cases List.mem_singleton.mp hw; rfl
  | cmd v => cases List.mem_singleton.mp hw; rw [decodeRequest_wordCmd]; rfl
  | data v => cases List.mem_singleton.mp hw; rw [decodeRequest_wordData]; rfl
  | cursor row column => cases List.mem_singleton.mp hw; rw [decodeRequest_wordCursor]; rfl
  | clear => cases List.mem_singleton.mp hw; rfl
  | req n => exact absurd rfl (hreq n)
  | print codes =>
    obtain ⟨c, -, rfl⟩ := List.mem_map.mp hw
    rw [decodeRequest_wordData]; rfl
  | home => cases List.mem_singleton.mp hw; rw [decodeRequest_wordCmd]; rfl

/-! ### The obligations -/

/-- Settles O2: a request is read back from the fields of its word, a command byte's instruction from its row's byte. -/
theorem decodeOfEncodeGivesBackTheInstruction : Obligations.DecodeOfEncodeGivesBackTheInstruction := by
  intro i
  cases i with
  | init a b => exact decodeRequest_ofFields 0x1 a b
  | sendCommand v b => exact decodeRequest_ofFields 0x2 v b
  | sendData v b => exact decodeRequest_ofFields 0x3 v b
  | setCursor row column => exact decodeRequest_ofFields 0x4 row column
  | clear a b => exact decodeRequest_ofFields 0x5 a b
  | reserved0 a b => exact decodeRequest_ofFields 0x0 a b
  | reserved6 a b => exact decodeRequest_ofFields 0x6 a b
  | reserved7 a b => exact decodeRequest_ofFields 0x7 a b
  | reserved8 a b => exact decodeRequest_ofFields 0x8 a b
  | reserved9 a b => exact decodeRequest_ofFields 0x9 a b
  | reservedA a b => exact decodeRequest_ofFields 0xA a b
  | reservedB a b => exact decodeRequest_ofFields 0xB a b
  | reservedC a b => exact decodeRequest_ofFields 0xC a b
  | reservedD a b => exact decodeRequest_ofFields 0xD a b
  | reservedE a b => exact decodeRequest_ofFields 0xE a b
  | reservedF a b => exact decodeRequest_ofFields 0xF a b
  | lcdNoInstruction => rfl
  | lcdClearDisplay => rfl
  | lcdReturnHome x => exact decodeLcdCommand_returnHome x
  | lcdEntryModeSet i s => exact decodeLcdCommand_entryModeSet i s
  | lcdDisplayControl d c b => exact decodeLcdCommand_displayControl d c b
  | lcdCursorDisplayShift s r x => exact decodeLcdCommand_cursorDisplayShift s r x
  | lcdFunctionSet d n f x => exact decodeLcdCommand_functionSet d n f x
  | lcdSetCgramAddress addr => exact decodeLcdCommand_setCgramAddress addr
  | lcdSetDdramAddress addr => exact decodeLcdCommand_setDdramAddress addr

/-- Settles O3: a request word is rebuilt from its fields, a command byte from its row's fields. -/
theorem encodeOfDecodeGivesBackTheWord : Obligations.EncodeOfDecodeGivesBackTheWord := by
  intro c
  cases c with
  | request w => exact encode_decodeRequest w
  | lcdByte v => exact encode_decodeLcdCommand v

/-- Settles O7: each line's words are built from the fields of its request, PRINT's one by one, and every operand in range is
its own byte. -/
theorem assembledWordsDecodeToTheirRequests : Obligations.AssembledWordsDecodeToTheirRequests := by
  refine ⟨fun k hk => ⟨decide_eq_true hk, byte_num hk⟩, fun k hk hk' => ⟨?_, byte_chr hk'⟩, fun n hn => ?_,
    fun n hn => ?_, fun row column hr hc => ?_, ⟨_, rfl, by decide⟩, ⟨_, rfl, by decide⟩, ⟨_, rfl, by decide⟩, fun w => ?_,
    fun codes hcodes => ?_, fun l ws hl hreq w hw => ?_⟩
  · simp [AsmNum.wf, hk, hk']
  · exact ⟨wordCmd n.byte, assemble_of_wf hn, decodeRequest_wordCmd n.byte⟩
  · exact ⟨wordData n.byte, assemble_of_wf hn, decodeRequest_wordData n.byte⟩
  · exact ⟨wordCursor row.byte column.byte, assemble_of_wf (Bool.and_intro hr hc), decodeRequest_wordCursor _ _⟩
  · have hw : (AsmLine.req w.toNat).wf = true := decide_eq_true w.isLt
    rw [assemble_of_wf hw, AsmLine.words, BitVec.ofNat_toNat, BitVec.setWidth_eq]
  · refine ⟨_, assemble_of_wf (List.all_eq_true.mpr fun c hc => decide_eq_true (hcodes c hc)), ?_⟩
    simp [AsmLine.words]
  · rw [← words_of_assemble hl] at hw
    exact canonical_of_mem_words hreq hw

/-- Settles O1: the decoders evaluated at the nine words. -/
theorem knownWordsDecode : Obligations.KnownWordsDecode := by
  unfold Obligations.KnownWordsDecode
  decide

/-- Settles O5: the decoder evaluated at the 256 bytes. -/
theorem highestSetBitSelectsTheLcdClass : Obligations.HighestSetBitSelectsTheLcdClass := by
  unfold Obligations.HighestSetBitSelectsTheLcdClass
  decide

/-- Settles O6: the assembler evaluated at the eight lines. -/
theorem assemblerWordsAreTheTables : Obligations.AssemblerWordsAreTheTables := by
  unfold Obligations.AssemblerWordsAreTheTables
  decide

end Sys2Proof.Machine

/-! SUPPORT. The invariants: the registers (R22, R24, R25, R202, R204) and the conformance of the history to plans and results (R50,
R51, R61, R203), each kept by every transition, and the proofs of the statements about them. -/

namespace Sys2Proof.Machine

/-! ### The plan of the latched request -/

/-- No plan is longer than INIT's (R25, R122). -/
theorem planOf_length_le (op : Opcode) (a b : Byte) : (planOf op a b).length ≤ 26 := by
  obtain hp | ⟨v, hp⟩ | ⟨v, hp⟩ | hp := planOf_cases op a b <;> simp [hp]

theorem plan_length_le (r : Regs) : r.plan.length ≤ 26 := planOf_length_le r.op r.a r.b

@[simp] theorem accept_plan (op : Opcode) (a b : Byte) (s : State) : (accept op a b s).regs.plan = planOf op a b := rfl

/-- The five opcodes that are not reserved (R84, R85). -/
theorem opcode_ne_of_reserved : ∀ op : Opcode, opIsReserved op = true →
    op ≠ 0x1 ∧ op ≠ 0x2 ∧ op ≠ 0x3 ∧ op ≠ 0x4 ∧ op ≠ 0x5 := by decide

/-- A reserved opcode has the empty plan (R85). -/
theorem planOf_of_reserved {op : Opcode} (h : opIsReserved op = true) (a b : Byte) : planOf op a b = [] := by
  obtain ⟨h1, h2, h3, h4, h5⟩ := opcode_ne_of_reserved op h
  simp only [planOf, if_neg h1, if_neg h2, if_neg h3, if_neg h4, if_neg h5]

/-- A row is ignored only by SET_CURSOR (R24). -/
theorem eq_setCursor_of_rowIsIgnored {op : Opcode} {a : Byte} (h : rowIsIgnored op a = true) : op = 0x4 :=
  eq_of_beq (Bool.and_elim_left h)

/-- An ignored row has the empty plan (R152). -/
theorem planOf_of_rowIsIgnored {op : Opcode} {a : Byte} (h : rowIsIgnored op a = true) (b : Byte) :
    planOf op a b = [] := by
  obtain rfl := eq_setCursor_of_rowIsIgnored h
  obtain ⟨h0, h1⟩ := (rowIsIgnored_setCursor a).mp h
  exact cursorPlan_ignored h0 h1 b

/-- The step index of a completed event does not wrap (R25). -/
theorem step_add_one_toNat {r : Regs} {e : PlanEvent} (he : r.plan[r.step.toNat]? = some e) :
    (r.step + 1).toNat = r.step.toNat + 1 := by
  have hlt := (List.getElem?_eq_some_iff.mp he).1
  have hlen := plan_length_le r
  rw [BitVec.toNat_add]
  exact Nat.mod_eq_of_lt (by simp; omega)

/-! ### Results -/

/-- Bit 0 of a result is `BUSFAIL` (R24). -/
@[simp] theorem resultOf_busFail (op : Opcode) (a : Byte) (failed : Bool) :
    (resultOf op a failed).getLsbD 0 = failed := by
  have hbits : ∀ badOp noCmd failed : Bool, (resultBits badOp noCmd failed).getLsbD 0 = failed := by decide
  exact hbits _ _ _

/-- A completion adds a failed write to the result (R29, R203). -/
@[simp] theorem resAfterEvent_resultOf (e : PlanEvent) (op : Opcode) (a : Byte) (failed fail : Bool) :
    resAfterEvent e (resultOf op a failed) fail = resultOf op a (failed || failedWrite e fail) := by
  have hwrite : ∀ badOp noCmd failed fail : Bool,
      resAfterWrite (resultBits badOp noCmd failed) fail = resultBits badOp noCmd (failed || fail) := by decide
  cases e with
  | write data => exact hwrite _ _ failed fail
  | delay ms => rw [failedWrite, Bool.or_false]; rfl

/-- A result can occur (R202): `BADOP` and `NOCMD` exclude each other, and with an event in the plan neither is set. -/
theorem legalResult_resultOf {op : Opcode} {a b : Byte} {failed : Bool} (h : failed = true → planOf op a b ≠ []) :
    LegalResult (resultOf op a failed) := by
  unfold resultOf
  cases hop : opIsReserved op with
  | true =>
    have hrow : rowIsIgnored op a = false := by
      refine Bool.eq_false_iff.mpr fun hrow => ?_
      rw [eq_setCursor_of_rowIsIgnored hrow] at hop
      exact absurd hop (by decide)
    have hf : failed = false := Bool.eq_false_iff.mpr fun hf => h hf (planOf_of_reserved hop a b)
    rw [hrow, hf]; decide
  | false =>
    cases hrow : rowIsIgnored op a with
    | true =>
      have hf : failed = false := Bool.eq_false_iff.mpr fun hf => h hf (planOf_of_rowIsIgnored hrow b)
      rw [hf]; decide
    | false => cases failed <;> decide

/-- Complete adds a failed write to the result (R29). -/
theorem complete_res_of_inv {s : State} (h : s.regs.Inv) (hb : s.regs.busy = true) (e : PlanEvent) :
    (complete e s).regs.res = resultOf s.regs.op s.regs.a (s.regs.busFailed || failedWrite e s.now.bwFail) := by
  obtain ⟨-, -, -, -, hres, -⟩ := h
  rw [complete_res, hres hb, resAfterEvent_resultOf]

/-! ### The register invariant -/

/-- The invariant of an idle engine. -/
theorem inv_of_idle {r : Regs} (hb : r.busy = false) (hp : r.pend = false) (hres : LegalResult r.res)
    (hrspr : LegalResult r.rspr) : r.Inv := by
  refine ⟨fun _ => hp, ?_, ?_, ?_, ?_, ?_, hres, hrspr⟩ <;> simp [hb, hp]

/-- The invariant of a busy engine whose request has had a failed write or none. -/
theorem inv_of_busy {r : Regs} (hb : r.busy = true) {failed : Bool} (hle : r.step.toNat ≤ r.plan.length)
    (hlt : r.pend = true → r.step.toNat < r.plan.length) (hv : r.rspv = false) (hres : r.res = resultOf r.op r.a failed)
    (hne : failed = true → r.plan ≠ []) (hrspr : LegalResult r.rspr) : r.Inv := by
  have hf : r.busFailed = failed := by rw [Regs.busFailed, hres, resultOf_busFail]
  refine ⟨?_, fun _ => hle, hlt, fun _ => hv, fun _ => ?_, fun _ => ?_, ?_, hrspr⟩
  · simp [hb]
  · rw [hf, hres]
  · rwa [hf]
  · rw [hres]; exact legalResult_resultOf hne

theorem resetEdge_inv (s : State) : (resetEdge s).regs.Inv := inv_of_idle rfl rfl (.inl rfl) (.inl rfl)

theorem tick_inv {s : State} (h : s.regs.Inv) : s.tick.regs.Inv := by
  obtain ⟨hidle, hle, hlt, -, hres, hne, hlegal, hrspr⟩ := h
  exact ⟨hidle, hle, hlt, fun _ => rfl, hres, hne, hlegal, hrspr⟩

theorem accept_inv {s : State} (h : s.regs.Inv) (op : Opcode) (a b : Byte) : (accept op a b s).regs.Inv := by
  obtain ⟨-, -, -, -, -, -, -, hrspr⟩ := h
  refine inv_of_busy (failed := false) rfl ?_ ?_ rfl rfl ?_ hrspr <;> simp

theorem issue_inv {s : State} {e : PlanEvent} (h : s.regs.Inv) (hb : s.regs.busy = true)
    (he : s.regs.plan[s.regs.step.toNat]? = some e) : (issue e s).regs.Inv := by
  obtain ⟨-, hle, -, -, hres, hne, -, hrspr⟩ := h
  exact inv_of_busy hb (hle hb) (fun _ => (List.getElem?_eq_some_iff.mp he).1) rfl (hres hb) (hne hb) hrspr

theorem complete_inv {s : State} {e : PlanEvent} (h : s.regs.Inv) (hb : s.regs.busy = true)
    (he : s.regs.plan[s.regs.step.toNat]? = some e) : (complete e s).regs.Inv := by
  have ⟨_, _, _, _, _, _, _, hrspr⟩ := h
  have hstep : (complete e s).regs.step.toNat ≤ s.regs.plan.length := by
    rw [complete_step, step_add_one_toNat he]
    exact (List.getElem?_eq_some_iff.mp he).1
  have hne : s.regs.plan ≠ [] := List.ne_nil_of_mem (List.mem_of_getElem? he)
  exact inv_of_busy hb hstep nofun rfl (complete_res_of_inv h hb e) (fun _ => hne) hrspr

theorem respond_inv {s : State} (h : s.regs.Inv) (hp : s.regs.pend = false) : (respond s).regs.Inv := by
  obtain ⟨-, -, -, -, -, -, hlegal, -⟩ := h
  exact inv_of_idle rfl hp hlegal hlegal

theorem sequencerEdge_inv {s : State} (h : s.regs.Inv) (hb : s.regs.busy = true) :
    (sequencerEdge s.regs.plan s).regs.Inv := by
  obtain ⟨hs, -⟩ | ⟨e, he, -, -, hs⟩ | ⟨e, he, -, -, hs⟩ | ⟨-, hp, -, hs⟩ := sequencerEdge_cases s.regs.plan s <;> rw [hs]
  · exact tick_inv h
  · exact issue_inv h hb he
  · exact complete_inv h hb he
  · exact respond_inv h hp

/-- Every step keeps the register invariant. -/
theorem step_inv {s t : State} (h : s.regs.Inv) (hstep : step s = .next t) : t.regs.Inv := by
  obtain ⟨-, rfl⟩ | ⟨-, -, -, rfl⟩ | ⟨-, -, -, rfl⟩ | ⟨-, hb, rfl⟩ := step_cases hstep
  · exact resetEdge_inv s
  · exact tick_inv h
  · exact accept_inv h _ _ _
  · exact sequencerEdge_inv h hb

/-! ### The phases of a history -/

/-- The newest item, answered, is the completed event (R29). -/
@[simp] theorem answerNewest_issuedItem (e : PlanEvent) (fail : Bool) (addr : BusAddr) (older : List HistoryItem) :
    answerNewest e fail (issuedItem addr e :: older) = completedItem addr e fail :: older := by
  cases e <;> rfl

/-- An issued event moves the phase to its waiting (R28). -/
theorem advance_issuedItem {w : ReqWord} {k : Nat} {e : PlanEvent} (he : (planOfWord w)[k]? = some e) (addr : BusAddr)
    (failed : Bool) :
    Phase.advance (issuedItem addr e) (.running addr w k false failed) = some (.running addr w k true failed) := by
  cases e <;> simp [issuedItem, Phase.advance, he]

/-- A completed event moves the phase to the next one (R29). -/
theorem advance_completedItem {w : ReqWord} {k : Nat} {e : PlanEvent} (he : (planOfWord w)[k]? = some e)
    (addr : BusAddr) (failed fail : Bool) :
    Phase.advance (completedItem addr e fail) (.running addr w k false failed)
      = some (.running addr w (k + 1) false (failed || failedWrite e fail)) := by
  cases e with
  | write data => cases fail <;> simp [completedItem, answerOf, Phase.advance, he, failedWrite]
  | delay ms => simp [completedItem, Phase.advance, he, failedWrite]

/-- Only the Issue of the plan's next event leads to a phase in which it is pending. -/
theorem eq_issuedItem_of_advance {item : HistoryItem} {p : Phase} {addr : BusAddr} {w : ReqWord} {k : Nat}
    {failed : Bool} (h : Phase.advance item p = some (.running addr w k true failed)) :
    ∃ e, (planOfWord w)[k]? = some e ∧ item = issuedItem addr e ∧ p = .running addr w k false failed := by
  unfold Phase.advance at h
  split at h
  · cases h
  · cases h
  · split_ifs at h with hc
    split at h <;> cases h
    obtain ⟨he, rfl⟩ := hc
    exact ⟨_, he, rfl, rfl⟩
  · split_ifs at h with he
    split at h <;> cases h
    exact ⟨_, he, rfl, rfl⟩
  · split_ifs at h
    cases h
  · cases h

/-- A new item that may stand in the phase at the end of the history. -/
theorem replay_cons_of_advance {start p q : Phase} {older : List HistoryItem} {item : HistoryItem}
    (h : replay start older = some p) (hq : Phase.advance item p = some q) : replay start (item :: older) = some q := by
  rw [replay, h, Option.bind_some, hq]

/-- The answer to the pending event of a history moves the phase to the next event (R29). -/
theorem replay_answerNewest {addr₀ addr : BusAddr} {w : ReqWord} {k : Nat} {failed : Bool} {items : List HistoryItem}
    {e : PlanEvent} (he : (planOfWord w)[k]? = some e) (fail : Bool)
    (h : replay (.idle addr₀) items = some (.running addr w k true failed)) :
    replay (.idle addr₀) (answerNewest e fail items)
      = some (.running addr w (k + 1) false (failed || failedWrite e fail)) := by
  cases items with
  | nil => cases h
  | cons item older =>
    obtain ⟨p, hp, hadv⟩ := Option.bind_eq_some_iff.mp h
    obtain ⟨e', he', rfl, rfl⟩ := eq_issuedItem_of_advance hadv
    obtain rfl : e' = e := Option.some.inj (he'.symm.trans he)
    rw [answerNewest_issuedItem]
    exact replay_cons_of_advance hp (advance_completedItem he addr failed fail)

/-! ### The phase that the registers show -/

theorem phase_of_idle {r : Regs} (hb : r.busy = false) : r.phase = .idle r.addr := by simp [Regs.phase, hb]

theorem phase_of_busy {r : Regs} (hb : r.busy = true) :
    r.phase = .running r.addr r.latchedWord r.step.toNat r.pend r.busFailed := by simp [Regs.phase, hb]

theorem complete_busFailed {s : State} (h : s.regs.Inv) (hb : s.regs.busy = true) (e : PlanEvent) :
    (complete e s).regs.busFailed = (s.regs.busFailed || failedWrite e s.now.bwFail) := by
  rw [Regs.busFailed, complete_res_of_inv h hb, resultOf_busFail]

/-! ### Each transition keeps the history conforming -/

theorem resetEdge_conforms {s : State} (h : s.Conforms) : (resetEdge s).Conforms := by
  obtain ⟨addr, h⟩ := h
  exact ⟨addr, replay_cons_of_advance h rfl⟩

theorem tick_conforms {s : State} (h : s.Conforms) : s.tick.Conforms := h

theorem accept_conforms {s : State} (h : s.Conforms) (hb : s.regs.busy = false) (op : Opcode) (a b : Byte) :
    (accept op a b s).Conforms := by
  obtain ⟨addr, h⟩ := h
  rw [phase_of_idle hb] at h
  have hf : (accept op a b s).regs.busFailed = false := resultOf_busFail op a false
  refine ⟨addr, replay_cons_of_advance h ?_⟩
  rw [phase_of_busy rfl, hf]
  rfl

theorem issue_conforms {s : State} {e : PlanEvent} (h : s.Conforms) (hb : s.regs.busy = true) (hp : s.regs.pend = false)
    (he : s.regs.plan[s.regs.step.toNat]? = some e) : (issue e s).Conforms := by
  obtain ⟨addr, h⟩ := h
  rw [phase_of_busy hb, hp] at h
  rw [← planOfWord_latchedWord] at he
  refine ⟨addr, replay_cons_of_advance h ?_⟩
  rw [advance_issuedItem he, phase_of_busy (r := (issue e s).regs) hb]
  rfl

theorem complete_conforms {s : State} {e : PlanEvent} (h : s.Safe) (hb : s.regs.busy = true) (hp : s.regs.pend = true)
    (he : s.regs.plan[s.regs.step.toNat]? = some e) : (complete e s).Conforms := by
  obtain ⟨hinv, addr, h⟩ := h
  rw [phase_of_busy hb, hp] at h
  have he' := he
  rw [← planOfWord_latchedWord] at he'
  refine ⟨addr, (replay_answerNewest he' s.now.bwFail h).trans ?_⟩
  rw [phase_of_busy (r := (complete e s).regs) hb, complete_busFailed hinv hb, complete_step, step_add_one_toNat he]
  rfl

theorem respond_conforms {s : State} (h : s.Safe) (hb : s.regs.busy = true) (hp : s.regs.pend = false)
    (hend : s.regs.step.toNat = s.regs.plan.length) : (respond s).Conforms := by
  obtain ⟨⟨-, -, -, -, hres, -⟩, addr, h⟩ := h
  rw [phase_of_busy hb, hp] at h
  refine ⟨addr, replay_cons_of_advance h ?_⟩
  have hr : s.regs.res = resultOfWord s.regs.latchedWord s.regs.busFailed := by
    rw [resultOfWord, latchedWord_opcode, latchedWord_argA, ← hres hb]
  simp only [Phase.advance]
  rw [if_pos ⟨by rw [planOfWord_latchedWord, hend], hr⟩]
  rfl

theorem sequencerEdge_conforms {s : State} (h : s.Safe) (hb : s.regs.busy = true) :
    (sequencerEdge s.regs.plan s).Conforms := by
  obtain ⟨hs, -⟩ | ⟨e, he, hp, -, hs⟩ | ⟨e, he, hp, -, hs⟩ | ⟨hend, hp, -, hs⟩ :=
    sequencerEdge_cases s.regs.plan s <;> rw [hs]
  · exact tick_conforms h.2
  · exact issue_conforms h.2 hb hp he
  · exact complete_conforms h hb hp he
  · exact respond_conforms h hb hp hend

/-- Every step keeps the history of a safe state conforming. -/
theorem step_conforms {s t : State} (h : s.Safe) (hstep : step s = .next t) : t.Conforms := by
  obtain ⟨-, rfl⟩ | ⟨-, -, -, rfl⟩ | ⟨-, hb, -, rfl⟩ | ⟨-, hb, rfl⟩ := step_cases hstep
  · exact resetEdge_conforms h.2
  · exact tick_conforms h.2
  · exact accept_conforms h.2 hb _ _ _
  · exact sequencerEdge_conforms h hb

/-! ### The obligations -/

/-- Settles O38: each transition keeps the invariant, and a step is one of them. -/
theorem stepKeepsTheRegisterInvariant : Obligations.StepKeepsTheRegisterInvariant := fun _ _ => step_inv

/-- Settles O39: what each transition adds to the history, or answers in it, leads to the phase of its next registers; the
register invariant is what makes a response the result of its request. -/
theorem stepKeepsTheHistoryConforming : Obligations.StepKeepsTheHistoryConforming :=
  fun _ _ h hstep => ⟨step_inv h.1 hstep, step_conforms h hstep⟩

/-- Settles O37: the reset values are those of an idle engine, and nothing has happened yet. -/
theorem resetStateIsSafe : Obligations.ResetStateIsSafe :=
  ⟨inv_of_idle rfl rfl (.inl rfl) (.inl rfl), Config.bridgeAddr, rfl⟩

end Sys2Proof.Machine

/-! SUPPORT. The events of the plans (30_encoding.md section 3, 42_cursor_clear.md, 43_frame_sequencer.md): the bytes written (R90,
R91), the enable pulses (R173), the cursor bytes (R153), and the proofs of the statements about them. -/

namespace Sys2Proof.Machine

/-! ### The bytes written are frame bytes -/

/-- Both bytes of an enable pulse are frame bytes if the frame value sets neither `BL` nor `RW` itself (R91, R171). -/
theorem legalFrameByte_of_mem_framePair {f data : Byte} (hf : f &&& (maskBL ||| maskRW) = 0)
    (h : PlanEvent.write data ∈ framePair f) : LegalFrameByte data := by
  have hpair : ∀ f : Byte, f &&& (maskBL ||| maskRW) = 0 →
      LegalFrameByte (f ||| maskBL ||| maskEN) ∧ LegalFrameByte ((f &&& ~~~maskEN) ||| maskBL) := by decide
  simp only [framePair, List.mem_cons, List.not_mem_nil, or_false, PlanEvent.write.injEq] at h
  rcases h with rfl | rfl
  · exact (hpair f hf).1
  · exact (hpair f hf).2

/-- A frame value has neither `BL` nor `RW` (R170). -/
theorem hiFrame_and_maskBL_maskRW (v : Byte) (r : RegSelect) : hiFrame v r &&& (maskBL ||| maskRW) = 0 := by
  cases r <;> revert v <;> decide

theorem loFrame_and_maskBL_maskRW (v : Byte) (r : RegSelect) : loFrame v r &&& (maskBL ||| maskRW) = 0 := by
  cases r <;> revert v <;> decide

theorem legalFrameByte_of_mem_encodeByte {v data : Byte} {r : RegSelect} (h : PlanEvent.write data ∈ encodeByte v r) :
    LegalFrameByte data := by
  rcases List.mem_append.mp h with h | h
  · exact legalFrameByte_of_mem_framePair (hiFrame_and_maskBL_maskRW v r) h
  · exact legalFrameByte_of_mem_framePair (loFrame_and_maskBL_maskRW v r) h

@[simp] theorem write_mem_cmdPlan (data v : Byte) :
    PlanEvent.write data ∈ cmdPlan v ↔ PlanEvent.write data ∈ encodeByte v .command := by
  simp [cmdPlan]

/-- Every byte a plan writes is a frame byte (R91). -/
theorem legalFrameByte_of_mem_planOf {op : Opcode} {a b data : Byte} (h : PlanEvent.write data ∈ planOf op a b) :
    LegalFrameByte data := by
  obtain hp | ⟨v, hp⟩ | ⟨v, hp⟩ | hp := planOf_cases op a b <;> rw [hp] at h
  · simp only [initPlan, List.mem_append, write_mem_cmdPlan, List.mem_singleton, reduceCtorEq, false_or, or_assoc] at h
    rcases h with h | h | h | h | h <;> exact legalFrameByte_of_mem_encodeByte h
  · exact legalFrameByte_of_mem_encodeByte ((write_mem_cmdPlan data v).mp h)
  · exact legalFrameByte_of_mem_encodeByte h
  · exact (List.not_mem_nil h).elim

/-- Every frame byte is written when it is sent itself as a command or a data byte: its high nibble is its own. -/
theorem mem_plan_of_legalFrameByte : ∀ data : Byte, LegalFrameByte data →
    PlanEvent.write data ∈ planOf 0x2 data 0 ∨ PlanEvent.write data ∈ planOf 0x3 data 0 := by decide

/-- The bytes written are the frame bytes (R91). -/
theorem exists_write_mem_planOf_iff (data : Byte) :
    (∃ (op : Opcode) (a b : Byte), PlanEvent.write data ∈ planOf op a b) ↔ LegalFrameByte data := by
  refine ⟨fun ⟨op, a, b, h⟩ => legalFrameByte_of_mem_planOf h, fun h => ?_⟩
  rcases mem_plan_of_legalFrameByte data h with h | h
  · exact ⟨0x2, data, 0, h⟩
  · exact ⟨0x3, data, 0, h⟩

/-! ### The frame bytes -/

/-- A frame byte is put together from its nibble and its bits `EN` and `RS` (R90). -/
theorem legalFrameByte_eq_fields : ∀ data : Byte, LegalFrameByte data →
    data = (((data.extractLsb' 4 4).setWidth 8 <<< 4) ||| 0x08 ||| 0x04 ||| (data &&& 0x01))
      ∨ data = (((data.extractLsb' 4 4).setWidth 8 <<< 4) ||| 0x08 ||| (data &&& 0x01)) := by decide

theorem and_one_eq_zero_or_one : ∀ data : Byte, data &&& 0x01 = 0 ∨ data &&& 0x01 = 0x01 := by decide

/-- A nibble with `BL`, with or without `EN` and `RS`, is a frame byte (R91). -/
theorem legalFrameByte_of_fields : ∀ n : Nibble, ∀ r ∈ [(0 : Byte), 0x01],
    LegalFrameByte ((n.setWidth 8 <<< 4) ||| 0x08 ||| 0x04 ||| r)
      ∧ LegalFrameByte ((n.setWidth 8 <<< 4) ||| 0x08 ||| r) := by decide

/-- The frame bytes are the nibbles in bits 7..4 with `BL`, and `EN` and `RS` free (R91). -/
theorem legalFrameByte_iff_fields (data : Byte) :
    LegalFrameByte data ↔ ∃ (n : Nibble) (r : Byte), (r = 0 ∨ r = 0x01)
      ∧ (data = ((n.setWidth 8 <<< 4) ||| 0x08 ||| 0x04 ||| r) ∨ data = ((n.setWidth 8 <<< 4) ||| 0x08 ||| r)) := by
  refine ⟨fun h => ⟨_, _, and_one_eq_zero_or_one data, legalFrameByte_eq_fields data h⟩, ?_⟩
  rintro ⟨n, r, hr, hdata⟩
  obtain ⟨hhigh, hlow⟩ := legalFrameByte_of_fields n r (by simpa using hr)
  rcases hdata with rfl | rfl
  · exact hhigh
  · exact hlow

/-- The frame bytes, in ascending order. -/
def frameBytes : List Byte := ((List.finRange 256).map BitVec.ofFin).filter fun w => LegalFrameByte w

theorem mem_frameBytes (w : Byte) : w ∈ frameBytes ↔ LegalFrameByte w := by
  have hw : w ∈ (List.finRange 256).map BitVec.ofFin :=
    List.mem_map.mpr ⟨w.toFin, List.mem_finRange _, rfl⟩
  rw [frameBytes, List.mem_filter, decide_eq_true_iff]
  exact and_iff_right hw

theorem frameBytes_nodup : frameBytes.Nodup := by
  have hinj : Function.Injective (BitVec.ofFin (w := 8)) := fun _ _ h => congrArg BitVec.toFin h
  exact ((List.nodup_finRange 256).map hinj).filter _

theorem frameBytes_length : frameBytes.length = 64 := by decide

/-- A frame byte has `RW` clear and `BL` set (R90). -/
theorem rw_bl_of_legalFrameByte : ∀ data : Byte, LegalFrameByte data → data &&& 0x02 = 0 ∧ data &&& 0x08 = 0x08 := by
  decide

/-! ### The enable pulses -/

/-- R173 for a list of events: a write with enable high is followed at once by the write of the same byte with enable low,
and each write with enable low comes at once after such a one. -/
def EnablePaired (plan : List PlanEvent) : Prop :=
  ∀ (k : Nat) (data : Byte), plan[k]? = some (.write data) →
    (data &&& 0x04 = 0x04 → plan[k + 1]? = some (.write (data &&& ~~~0x04#8)))
      ∧ (data &&& 0x04 = 0 → ∃ j, k = j + 1 ∧ plan[j]? = some (.write (data ||| 0x04)))

theorem enablePaired_nil : EnablePaired [] := nofun

theorem enablePaired_delay (ms : Byte) : EnablePaired [.delay ms] := by
  intro k data h
  cases k <;> cases h

/-- The enable pulse is such a pair, whatever the frame value (R171). -/
theorem enablePaired_framePair (f : Byte) : EnablePaired (framePair f) := by
  have hbits : ∀ f : Byte, (f ||| maskBL ||| maskEN) &&& 0x04 ≠ 0
      ∧ (f ||| maskBL ||| maskEN) &&& ~~~0x04#8 = (f &&& ~~~maskEN) ||| maskBL
      ∧ ((f &&& ~~~maskEN) ||| maskBL) &&& 0x04 ≠ 0x04
      ∧ ((f &&& ~~~maskEN) ||| maskBL) ||| 0x04 = f ||| maskBL ||| maskEN := by decide
  obtain ⟨hhigh, hfall, hlow, hrise⟩ := hbits f
  intro k data h
  match k, h with
  | 0, h =>
    cases h
    exact ⟨fun _ => by rw [hfall]; rfl, fun h0 => absurd h0 hhigh⟩
  | 1, h =>
    cases h
    exact ⟨fun h4 => absurd h4 hlow, fun _ => ⟨0, rfl, by rw [hrise]; rfl⟩⟩

/-- Pairs stay pairs when lists of events are joined. -/
theorem EnablePaired.append {p q : List PlanEvent} (hp : EnablePaired p) (hq : EnablePaired q) :
    EnablePaired (p ++ q) := by
  intro k data h
  by_cases hk : k < p.length
  · rw [List.getElem?_append_left hk] at h
    obtain ⟨hfall, hrise⟩ := hp k data h
    refine ⟨fun h4 => ?_, fun h0 => ?_⟩
    · have hnext := hfall h4
      rwa [List.getElem?_append_left (List.getElem?_eq_some_iff.mp hnext).1]
    · obtain ⟨j, rfl, hj⟩ := hrise h0
      exact ⟨j, rfl, by rwa [List.getElem?_append_left (by omega)]⟩
  · rw [List.getElem?_append_right (by omega)] at h
    obtain ⟨hfall, hrise⟩ := hq (k - p.length) data h
    refine ⟨fun h4 => ?_, fun h0 => ?_⟩
    · rw [List.getElem?_append_right (by omega), show k + 1 - p.length = k - p.length + 1 by omega]
      exact hfall h4
    · obtain ⟨j, hkj, hj⟩ := hrise h0
      refine ⟨p.length + j, by omega, ?_⟩
      rwa [List.getElem?_append_right (by omega), Nat.add_sub_cancel_left]

theorem enablePaired_encodeByte (v : Byte) (r : RegSelect) : EnablePaired (encodeByte v r) :=
  (enablePaired_framePair _).append (enablePaired_framePair _)

theorem enablePaired_cmdPlan (v : Byte) : EnablePaired (cmdPlan v) :=
  (enablePaired_encodeByte v .command).append (enablePaired_delay _)

theorem enablePaired_initPlan : EnablePaired initPlan :=
  (((((enablePaired_delay _).append (enablePaired_cmdPlan _)).append (enablePaired_cmdPlan _)).append
    (enablePaired_cmdPlan _)).append (enablePaired_cmdPlan _)).append (enablePaired_cmdPlan _)

/-! ### The cursor bytes -/

/-- The bases of the rows differ by 0x40 (R153). -/
theorem row0Base_add_eq (column : Byte) : row0Base + column = row1Base + (column - 0x40) := by
  unfold row0Base row1Base
  bv_omega

theorem row0Base_add_le {column : Byte} (h : 0x80#8 ≤ column) : row0Base + column ≤ 0x7F#8 := by
  unfold row0Base
  bv_omega

theorem row1Base_add_le {column : Byte} (h : 0x40#8 ≤ column) : row1Base + column ≤ 0xBF#8 := by
  unfold row1Base
  bv_omega

/-! ### The obligations -/

/-- Settles O32: the bytes written are those of `LegalFrameByte`, which are put together from their fields and listed in
`frameBytes`. -/
theorem writtenBytesAreTheFrameBytes : Obligations.WrittenBytesAreTheFrameBytes := by
  refine ⟨fun data => ?_, ⟨frameBytes, frameBytes_length, frameBytes_nodup, fun data => ?_⟩, fun op a b data h => ?_⟩
  · exact (exists_write_mem_planOf_iff data).trans (legalFrameByte_iff_fields data)
  · exact (mem_frameBytes data).trans (exists_write_mem_planOf_iff data).symm
  · exact rw_bl_of_legalFrameByte data (legalFrameByte_of_mem_planOf h)

/-- Settles O34: the enable pulse is a pair, and every plan is joined from enable pulses and delays. -/
theorem enablePulsesComeInPairs : Obligations.EnablePulsesComeInPairs := by
  intro op a b
  change EnablePaired (planOf op a b)
  obtain hp | ⟨v, hp⟩ | ⟨v, hp⟩ | hp := planOf_cases op a b <;> rw [hp]
  · exact enablePaired_initPlan
  · exact enablePaired_cmdPlan v
  · exact enablePaired_encodeByte v .data
  · exact enablePaired_nil

/-- Settles O31: the plans evaluated at the 256 bytes, and INIT's plan. -/
theorem planBytesAreTheVectors : Obligations.PlanBytesAreTheVectors := ⟨by decide, rfl⟩

/-- Settles O36: a row's command byte is its base plus the column, modulo 256. -/
theorem columnIsNotBoundsChecked : Obligations.ColumnIsNotBoundsChecked := by
  refine ⟨fun c => ?_, fun c h => ⟨_, row0Base_add_le h, rfl⟩, fun c h => ⟨_, row1Base_add_le h, rfl⟩, rfl⟩
  rw [cursorPlan_row0, cursorPlan_row1, row0Base_add_eq]

end Sys2Proof.Machine

/-! SUPPORT. The frame decoder (43_frame_sequencer.md, R176): what it reads from an enable pulse, from a byte's frames, from any
sequence of bytes and from the plans (R122, R131, R136, R151), and the proofs of the statements about it. -/

namespace Sys2Proof.Machine

/-! ### What a plan writes -/

@[simp] theorem writesOf_append (p q : List PlanEvent) : writesOf (p ++ q) = writesOf p ++ writesOf q :=
  List.filterMap_append

@[simp] theorem writesOf_delay (ms : Byte) : writesOf [.delay ms] = [] := rfl

/-! ### What is latched -/

@[simp] theorem latchedNibbles_nil : latchedNibbles [] = [] := rfl

/-- A write with enable low is not the start of a falling edge (R173). -/
theorem latchedNibbles_cons_of_low {w : Byte} (h : w &&& maskEN ≠ maskEN) (rest : List Byte) :
    latchedNibbles (w :: rest) = latchedNibbles rest := by
  cases rest with
  | nil => rfl
  | cons w' rest => exact if_neg fun hw => h hw.1

/-- The nibble and the register select of a frame value. -/
def frameNibble (f : Byte) : LatchedNibble := ⟨f.extractLsb' 4 4, registerOf f⟩

/-- From an enable pulse the nibble and the register select of the frame value are latched (R171, R176). -/
theorem latchedNibbles_framePair (f : Byte) (rest : List Byte) :
    latchedNibbles (writesOf (framePair f) ++ rest) = frameNibble f :: latchedNibbles rest := by
  have hbits : ∀ f : Byte, (f ||| maskBL ||| maskEN) &&& maskEN = maskEN ∧ ((f &&& ~~~maskEN) ||| maskBL) &&& maskEN = 0
      ∧ frameNibble ((f &&& ~~~maskEN) ||| maskBL) = frameNibble f := by decide
  obtain ⟨hhigh, hlow, hnibble⟩ := hbits f
  have hnext : ((f &&& ~~~maskEN) ||| maskBL) &&& maskEN ≠ maskEN := by rw [hlow]; decide
  rw [← hnibble, ← latchedNibbles_cons_of_low hnext rest]
  exact if_pos ⟨hhigh, hlow⟩

theorem frameNibble_hiFrame : ∀ (r : RegSelect) (v : Byte), frameNibble (hiFrame v r) = ⟨v.extractLsb' 4 4, r⟩ := by
  intro r
  cases r <;> decide

theorem frameNibble_loFrame : ∀ (r : RegSelect) (v : Byte), frameNibble (loFrame v r) = ⟨v.extractLsb' 0 4, r⟩ := by
  intro r
  cases r <;> decide

/-- From the writes of a byte its two nibbles are latched, high first (R172, R176). -/
theorem latchedNibbles_encodeByte (v : Byte) (r : RegSelect) (rest : List Byte) :
    latchedNibbles (writesOf (encodeByte v r) ++ rest)
      = ⟨v.extractLsb' 4 4, r⟩ :: ⟨v.extractLsb' 0 4, r⟩ :: latchedNibbles rest := by
  rw [encodeByte, writesOf_append, List.append_assoc, latchedNibbles_framePair, latchedNibbles_framePair,
    frameNibble_hiFrame, frameNibble_loFrame]

/-! ### What is read -/

@[simp] theorem lcdBytes_nil : lcdBytes [] = [] := rfl

theorem nibbles_append : ∀ v : Byte, v.extractLsb' 4 4 ++ v.extractLsb' 0 4 = v := by decide

/-- The decoder reads a byte sent before other writes, and then what it reads from those (R177). -/
theorem lcdBytes_encodeByte (v : Byte) (r : RegSelect) (rest : List Byte) :
    lcdBytes (writesOf (encodeByte v r) ++ rest) = ⟨v, r⟩ :: lcdBytes rest := by
  rw [lcdBytes, latchedNibbles_encodeByte, pairNibbles, if_pos rfl, nibbles_append]
  rfl

/-- The decoder reads any sequence of bytes from its writes (R177). -/
theorem lcdBytes_flatMap_encodeByte (bytes : List LcdByte) :
    lcdBytes (writesOf (bytes.flatMap fun x => encodeByte x.value x.register)) = bytes := by
  induction bytes with
  | nil => rfl
  | cons x xs ih => rw [List.flatMap_cons, writesOf_append, lcdBytes_encodeByte, ih]

/-- The decoder reads a command plan's byte, and then what is written after it (R131). -/
theorem lcdBytes_cmdPlan (v : Byte) (rest : List Byte) :
    lcdBytes (writesOf (cmdPlan v) ++ rest) = ⟨v, .command⟩ :: lcdBytes rest := by
  rw [cmdPlan, writesOf_append, writesOf_delay, List.append_nil, lcdBytes_encodeByte]

/-- The decoder reads from a command plan its byte (R131). -/
theorem lcdBytes_writesOf_cmdPlan (v : Byte) : lcdBytes (writesOf (cmdPlan v)) = [⟨v, .command⟩] := by
  simpa using lcdBytes_cmdPlan v []

/-- The decoder reads from a data plan its byte (R136). -/
theorem lcdBytes_writesOf_dataPlan (v : Byte) : lcdBytes (writesOf (dataPlan v)) = [⟨v, .data⟩] := by
  simpa [dataPlan] using lcdBytes_encodeByte v .data []

/-- The decoder reads INIT's five command bytes, in order (R122). -/
theorem lcdBytes_writesOf_initPlan :
    lcdBytes (writesOf initPlan) = [0x02, 0x28, 0x0C, 0x06, 0x01].map fun v => ⟨v, .command⟩ := by
  rw [initPlan_eq_cmdPlans]
  simp only [writesOf_append, writesOf_delay, List.nil_append, List.append_assoc, lcdBytes_cmdPlan,
    lcdBytes_writesOf_cmdPlan]
  rfl

/-- The decoder reads SET_CURSOR's command byte, if it has one (R151, R152). -/
theorem lcdBytes_writesOf_cursorPlan (row column : Byte) :
    lcdBytes (writesOf (cursorPlan row column)) = bytesSent (.setCursor row column) := by
  obtain rfl | h0 := eq_or_ne row 0
  · exact lcdBytes_writesOf_cmdPlan (row0Base + column)
  obtain rfl | h1 := eq_or_ne row 1
  · exact lcdBytes_writesOf_cmdPlan (row1Base + column)
  · have hnone : bytesSent (.setCursor row column) = [] := (if_neg h0).trans (if_neg h1)
    rw [cursorPlan_ignored h0 h1, hnone]
    rfl

/-- The decoder reads from the plan of a request the bytes it sends. -/
theorem lcdBytes_writesOf_planOfWord (w : ReqWord) :
    lcdBytes (writesOf (planOfWord w)) = bytesSent (decodeRequest w) := by
  rw [decodeRequest_eq_request, planOfWord]
  rcases Opcode.cases w.opcode with h | h | h | h | h | h | h | h | h | h | h | h | h | h | h | h <;> rw [h]
  · rfl
  · exact lcdBytes_writesOf_initPlan
  · exact lcdBytes_writesOf_cmdPlan w.argA
  · exact lcdBytes_writesOf_dataPlan w.argA
  · exact lcdBytes_writesOf_cursorPlan w.argA w.argB
  · exact lcdBytes_writesOf_cmdPlan cmdClear
  all_goals rfl

/-! ### The writes of a successful request -/

/-- Without a failed write, the writes answered `ok` are those of the plan (R176). -/
theorem filterMap_okWrite_completedItems (addr : BusAddr) {plan : List PlanEvent} {fails : List Bool}
    (hlen : fails.length = plan.length) (h : anyWriteFailed plan fails = false) :
    (completedItems addr plan fails).filterMap (okWrite addr) = writesOf plan := by
  induction plan generalizing fails with
  | nil => rfl
  | cons e plan ih =>
    cases fails with
    | nil => cases hlen
    | cons fail fails =>
      obtain ⟨he, hrest⟩ : failedWrite e fail = false ∧ anyWriteFailed plan fails = false := by
        simpa [anyWriteFailed] using h
      have ih' := ih (Nat.succ.inj hlen) hrest
      cases e with
      | write data =>
        obtain rfl : fail = false := he
        have hok : okWrite addr (completedItem addr (.write data) false) = some data := if_pos rfl
        exact (List.filterMap_cons_some hok).trans (congrArg (data :: ·) ih')
      | delay ms => exact ih'

/-! ### The obligations -/

/-- Settles O35: a byte's writes latch its two nibbles, which read as the byte; a sequence is read byte by byte. -/
theorem frameDecoderRecoversTheBytes : Obligations.FrameDecoderRecoversTheBytes := by
  refine ⟨fun v r => ⟨?_, ?_⟩, lcdBytes_flatMap_encodeByte⟩
  · simpa using latchedNibbles_encodeByte v r []
  · simpa using lcdBytes_encodeByte v r []

/-- Settles O45: the writes answered `ok` are those of the plan, from which the decoder reads the request's bytes. -/
theorem successfulRequestDeliversItsBytes : Obligations.SuccessfulRequestDeliversItsBytes := by
  intro addr w fails hlen h
  rw [lcdView, okWrites, ← List.filterMap_reverse, List.reverse_reverse, filterMap_okWrite_completedItems addr hlen h,
    lcdBytes_writesOf_planOfWord]

end Sys2Proof.Machine

/-! SUPPORT. The transitions one by one (10_state.md section 3): the step of each, and the proofs of the statements about single
steps and about a wait without end (R29). -/

namespace Sys2Proof.Machine

/-! ### The steps of an engine without reset -/

/-- Without reset an idle engine's step with a request is its Accept (R27). -/
theorem step_eq_accept {s : State} (hr : s.now.rst = false) (hb : s.regs.busy = false) (hv : s.now.reqValid = true) :
    step s = .next (accept s.now.reqWord.opcode s.now.reqWord.argA s.now.reqWord.argB s) := by
  simp [step_eq, hr, hb, hv]

/-- Without reset a busy engine's step is the sequencer's edge (R26). -/
theorem step_eq_sequencerEdge {s : State} (hr : s.now.rst = false) (hb : s.regs.busy = true) :
    step s = .next (sequencerEdge s.regs.plan s) := by
  simp [step_eq, hr, hb]

/-- The current event waits while it is pending and not answered (R29). -/
theorem sequencerEdge_eq_tick_of_not_answered {plan : List PlanEvent} {s : State} {e : PlanEvent} (hp : s.regs.pend = true)
    (he : plan[s.regs.step.toNat]? = some e) (ha : answered e s.now = false) : sequencerEdge plan s = s.tick := by
  simp [sequencerEdge, he, hp, ha]

/-- A pending event waits while nothing is answered (R29). -/
theorem sequencerEdge_eq_tick_of_waiting {s : State} (plan : List PlanEvent) (hp : s.regs.pend = true)
    (ha : ∀ e, answered e s.now = false) : sequencerEdge plan s = s.tick := by
  cases he : plan[s.regs.step.toNat]? with
  | none => simp [sequencerEdge, he, hp]
  | some e => exact sequencerEdge_eq_tick_of_not_answered hp he (ha e)

/-- The engine idles while `stall` is set and nothing is pending (log 2). -/
theorem sequencerEdge_eq_tick_of_stall {s : State} (plan : List PlanEvent) (hp : s.regs.pend = false)
    (hs : s.now.stall = true) : sequencerEdge plan s = s.tick := by
  cases he : plan[s.regs.step.toNat]? <;> simp [sequencerEdge, he, hp, hs]

/-- The sequencer uses up one input cycle. -/
@[simp] theorem sequencerEdge_inputs (plan : List PlanEvent) (s : State) :
    (sequencerEdge plan s).inputs = s.inputs.tail := by
  obtain ⟨h, -⟩ | ⟨e, -, -, -, h⟩ | ⟨e, -, -, -, h⟩ | ⟨-, -, -, h⟩ := sequencerEdge_cases plan s <;> simp [h]

/-- At the end of the plan the step of an engine that does not idle is its Respond (R30). -/
theorem step_eq_respond {s : State} (hr : s.now.rst = false) (hs : s.now.stall = false) (hb : s.regs.busy = true)
    (hp : s.regs.pend = false) (hend : s.regs.step.toNat = s.regs.plan.length) :
    step s = .next
      { regs := { s.regs with busy := false, rspv := true, rspr := s.regs.res }
        inputs := s.inputs.tail
        history := .respond s.regs.res :: s.history } := by
  rw [step_eq_sequencerEdge hr hb, sequencerEdge_eq_respond hp hs hend]
  rfl

/-- The pulse lasts one cycle: the step of an idle engine clears `RSPV` (R30). -/
theorem step_rspv_of_idle {s t : State} (hb : s.regs.busy = false) (h : step s = .next t) : t.regs.rspv = false := by
  obtain ⟨-, rfl⟩ | ⟨-, -, -, rfl⟩ | ⟨-, -, -, rfl⟩ | ⟨-, hbusy, -⟩ := step_cases h
  · rfl
  · rfl
  · rfl
  · simp [hb] at hbusy

/-- What Accept loads into `RES`, with the conditions written out (R24, R27, R85). -/
theorem resAtAccept_eq (op : Opcode) (a : Byte) :
    resAtAccept op a = (if op = 0x0#4 ∨ 0x6#4 ≤ op then 0b100 else 0)
      ||| (if op = 0x4#4 ∧ a ≠ 0x00#8 ∧ a ≠ 0x01#8 then 0b010 else 0) := by
  simp [resAtAccept, resultBits, opIsReserved, rowIsIgnored, flagBadOp, flagNoCmd]

/-! ### An event that is never answered -/

/-- Without reset and answer the step of a busy engine with a pending event only uses up the cycle (R29). -/
theorem step_eq_tick_of_unanswered {s : State} (hb : s.regs.busy = true) (hp : s.regs.pend = true)
    (hr : s.now.rst = false) (hw : s.now.bwDone = false) (hd : s.now.dlDone = false) : step s = .next s.tick := by
  have ha : ∀ e, answered e s.now = false := by
    intro e
    cases e with
    | write data => exact hw
    | delay ms => exact hd
  rw [step_eq_sequencerEdge hr hb, sequencerEdge_eq_tick_of_waiting _ hp ha]

/-- No coming cycle has a reset or an answer; the other ports are free. -/
def State.Unanswered (s : State) : Prop := ∀ i ∈ s.inputs, i.rst = false ∧ i.bwDone = false ∧ i.dlDone = false

theorem State.Unanswered.now {s : State} (h : s.Unanswered) :
    s.now.rst = false ∧ s.now.bwDone = false ∧ s.now.dlDone = false := by
  obtain ⟨r, inputs, history⟩ := s
  cases inputs with
  | nil => exact ⟨rfl, rfl, rfl⟩
  | cons i rest => exact h i List.mem_cons_self

theorem State.Unanswered.tick {s : State} (h : s.Unanswered) : s.tick.Unanswered :=
  fun i hi => h i (List.mem_of_mem_tail hi)

theorem State.Unanswered.step_eq_tick {s : State} (h : s.Unanswered) (hb : s.regs.busy = true)
    (hp : s.regs.pend = true) : step s = .next s.tick := by
  obtain ⟨hr, hw, hd⟩ := h.now
  exact step_eq_tick_of_unanswered hb hp hr hw hd

/-! ### The obligations -/

/-- Settles O16: each unanswered edge is a cycle without a transition, after which the event is as before. -/
theorem unansweredEventWaitsForEver : Obligations.UnansweredEventWaitsForEver := by
  intro k s hb hp hin
  have h : s.Unanswered := hin
  clear hin
  induction k generalizing s with
  | zero => exact ⟨s.tick, run_succ (h.step_eq_tick hb hp) 0, rfl, rfl, (List.drop_one).symm⟩
  | succ k ih =>
    obtain ⟨t, hrun, hregs, hhist, hinputs⟩ := ih s.tick hb hp h.tick
    refine ⟨t, (run_succ (h.step_eq_tick hb hp) _).trans hrun, hregs, hhist, ?_⟩
    rw [hinputs, tick_inputs, List.drop_tail]

/-- Settles O12: the current instruction is the latched or the presented one, and a step runs it. -/
theorem stepRunsTheCurrentInstruction : Obligations.StepRunsTheCurrentInstruction := by
  refine fun s hr => ⟨fun hb => ?_, fun hb hv => ?_, step_eq_tick hr⟩
  · simp [step, State.currentInstr, hr, hb, Regs.latchedWord, ReqWord.ofFields]
  · simp [step, State.currentInstr, hr, hb, hv]

/-- Settles O13: the step is the Accept of the word's fields; `req_word` is none of the ports read while busy. -/
theorem acceptLatchesTheRequest : Obligations.AcceptLatchesTheRequest := by
  refine ⟨fun s w hr hb hv hw => ?_, fun s i rest w hb hs => step_eq_of_readAlike hs (by simp [Inputs.ReadAlike, hb])⟩
  subst hw
  rw [← resAtAccept_eq, step_eq_accept hr hb hv, accept, ReqWord.ofFields_fields]
  rfl

/-- Settles O15: with the answer of its collaborator the pending event completes, and without it the engine waits. -/
theorem completeAdvancesTheStep : Obligations.CompleteAdvancesTheStep := by
  intro s e hr hb hp he
  have hplan : s.regs.plan[s.regs.step.toNat]? = some e := he
  refine ⟨_, step_eq_sequencerEdge hr hb, sequencerEdge_inputs _ s, ?_⟩
  cases ha : answered e s.now with
  | true =>
    rw [sequencerEdge_eq_complete hp hplan ha]
    cases e with
    | write data => exact (if_pos ha).mpr rfl
    | delay ms => exact (if_pos ha).mpr rfl
  | false =>
    rw [sequencerEdge_eq_tick_of_not_answered hp hplan ha]
    cases e with
    | write data => exact (if_neg (Bool.eq_false_iff.mp ha)).mpr ⟨rfl, rfl⟩
    | delay ms => exact (if_neg (Bool.eq_false_iff.mp ha)).mpr ⟨rfl, rfl⟩

/-- Settles O17: the step at the end of the plan is the Respond, and an idle engine's step clears the pulse; an empty plan is
at its end right after the Accept. -/
theorem respondPulsesTheResult : Obligations.RespondPulsesTheResult := by
  refine ⟨fun s hr hs hb hp hend => step_eq_respond hr hs hb hp hend, fun s t => step_rspv_of_idle,
    fun s t hr hb hv hnil hstep hr' hs' => ?_⟩
  rw [step_eq_accept hr hb hv] at hstep
  cases hstep
  have hlen : (planOf s.now.reqWord.opcode s.now.reqWord.argA s.now.reqWord.argB).length = 0 :=
    List.length_eq_zero_iff.mpr hnil
  exact step_eq_respond hr' hs' rfl rfl hlen.symm

/-- Settles O21: a step answers the next state that `step_eq` writes out. -/
theorem everyStepGoesOn : Obligations.EveryStepGoesOn := fun s => ⟨_, step_eq s⟩

/-- Settles O8: the values written out in `Regs.reset`. -/
theorem resetStateHasTheResetValues : Obligations.ResetStateHasTheResetValues :=
  ⟨rfl, rfl, rfl, rfl, rfl, rfl, rfl, rfl, rfl, rfl⟩

end Sys2Proof.Machine

/-! SUPPORT. What the outside sees of the transitions (10_state.md sections 4 and 5): the output ports (R32), the collaborators'
answers, the step counter (R25), the history's items (R83, R91, R202), and the proofs of the statements about them. -/

namespace Sys2Proof.Machine

/-! ### The ports of a pending event -/

theorem currentEvent_eq (r : Regs) : currentEvent r = r.plan[r.step.toNat]? := rfl

/-- `bw_valid` (R32). -/
theorem bwValid_iff (r : Regs) :
    (outputs r).bwValid = true ↔ r.busy = true ∧ r.pend = true ∧ ∃ data, currentEvent r = some (.write data) := by
  cases he : currentEvent r with
  | none => simp [outputs, he, isWrite]
  | some e => cases e <;> simp [outputs, he, isWrite]

/-- `dl_valid` (R32). -/
theorem dlValid_iff (r : Regs) :
    (outputs r).dlValid = true ↔ r.busy = true ∧ r.pend = true ∧ ∃ ms, currentEvent r = some (.delay ms) := by
  cases he : currentEvent r with
  | none => simp [outputs, he, isDelay]
  | some e => cases e <;> simp [outputs, he, isDelay]

/-- The write that the ports present while it is pending (R28, R32). -/
theorem currentEvent_of_bwValid {r : Regs} (h : (outputs r).bwValid = true) :
    currentEvent r = some (.write (outputs r).bwData) ∧ (outputs r).dlMs = 0 := by
  obtain ⟨-, -, data, he⟩ := (bwValid_iff r).mp h
  simp [outputs, he, writeData, delayMs]

/-- The delay that the ports present while it is pending (R28, R32). -/
theorem currentEvent_of_dlValid {r : Regs} (h : (outputs r).dlValid = true) :
    currentEvent r = some (.delay (outputs r).dlMs) ∧ (outputs r).bwData = 0 := by
  obtain ⟨-, -, ms, he⟩ := (dlValid_iff r).mp h
  simp [outputs, he, writeData, delayMs]

/-- Under the register invariant a pending event is one of the plan, and the engine is busy (R25, R36). -/
theorem exists_event_of_pend {r : Regs} (h : r.Inv) (hp : r.pend = true) :
    r.busy = true ∧ ∃ e, currentEvent r = some e := by
  obtain ⟨hidle, -, hlt, -⟩ := h
  refine ⟨?_, _, List.getElem?_eq_getElem (hlt hp)⟩
  by_contra hb
  simp [hidle (Bool.eq_false_iff.mpr hb)] at hp

/-- While an event is pending, and only then, one of the valid ports is high (R32). -/
theorem pend_iff_valid {r : Regs} (h : r.Inv) :
    r.pend = true ↔ (outputs r).bwValid = true ∨ (outputs r).dlValid = true := by
  rw [bwValid_iff, dlValid_iff]
  constructor
  · intro hp
    obtain ⟨hb, e, he⟩ := exists_event_of_pend h hp
    cases e with
    | write data => exact .inl ⟨hb, hp, data, he⟩
    | delay ms => exact .inr ⟨hb, hp, ms, he⟩
  · rintro (⟨-, hp, -⟩ | ⟨-, hp, -⟩)
    · exact hp
    · exact hp

theorem not_bwValid_and_dlValid (r : Regs) : ¬ ((outputs r).bwValid = true ∧ (outputs r).dlValid = true) := by
  rintro ⟨hw, hd⟩
  have he := (currentEvent_of_bwValid hw).1.symm.trans (currentEvent_of_dlValid hd).1
  cases he

/-- The presented event is completed exactly when it is pending and its collaborator answers (R29, R32). -/
theorem valid_and_done_iff (r : Regs) (i : Inputs) :
    ((outputs r).bwValid = true ∧ i.bwDone = true) ∨ ((outputs r).dlValid = true ∧ i.dlDone = true)
      ↔ r.busy = true ∧ r.pend = true ∧ ∃ e, currentEvent r = some e ∧ answered e i = true := by
  rw [bwValid_iff, dlValid_iff]
  constructor
  · rintro (⟨⟨hb, hp, data, he⟩, hd⟩ | ⟨⟨hb, hp, ms, he⟩, hd⟩)
    · exact ⟨hb, hp, _, he, hd⟩
    · exact ⟨hb, hp, _, he, hd⟩
  · rintro ⟨hb, hp, e, he, hd⟩
    cases e with
    | write data => exact .inl ⟨⟨hb, hp, data, he⟩, hd⟩
    | delay ms => exact .inr ⟨⟨hb, hp, ms, he⟩, hd⟩

/-! ### Stray answers -/

/-- A delay cannot fail (R29). -/
theorem answerNewest_delay (ms : Byte) (fail fail' : Bool) (items : List HistoryItem) :
    answerNewest (.delay ms) fail items = answerNewest (.delay ms) fail' items := by
  rcases items with _ | ⟨_ | _ | _ | ⟨ms', _ | _⟩ | _, older⟩ <;> rfl

/-- Complete of a delay reads no port. -/
theorem complete_delay_eq (ms : Byte) (r : Regs) (i j : Inputs) (rest : List Inputs) (h : List HistoryItem) :
    complete (.delay ms) { regs := r, inputs := j :: rest, history := h }
      = complete (.delay ms) { regs := r, inputs := i :: rest, history := h } := by
  simp [complete, State.tick, resAfterEvent, answerNewest_delay ms j.bwFail i.bwFail]

/-- An answer to a write does not reach the sequencer unless a write is pending (R32). -/
theorem sequencerEdge_eq_of_not_bwValid {r : Regs} (hb : r.busy = true) (hv : (outputs r).bwValid = false) (i : Inputs)
    (done fail : Bool) (rest : List Inputs) (h : List HistoryItem) :
    sequencerEdge r.plan { regs := r, inputs := { i with bwDone := done, bwFail := fail } :: rest, history := h }
      = sequencerEdge r.plan { regs := r, inputs := i :: rest, history := h } := by
  unfold sequencerEdge
  cases he : r.plan[r.step.toNat]? with
  | none => rfl
  | some e =>
    cases hp : r.pend with
    | false => rfl
    | true =>
      cases e with
      | write data =>
        have : (outputs r).bwValid = true := (bwValid_iff r).mpr ⟨hb, hp, data, he⟩
        simp [this] at hv
      | delay ms =>
        simp only [complete_delay_eq ms r i { i with bwDone := done, bwFail := fail }]
        rfl

/-- An answer to a delay does not reach the sequencer unless a delay is pending (R32). -/
theorem sequencerEdge_eq_of_not_dlValid {r : Regs} (hb : r.busy = true) (hv : (outputs r).dlValid = false) (i : Inputs)
    (done : Bool) (rest : List Inputs) (h : List HistoryItem) :
    sequencerEdge r.plan { regs := r, inputs := { i with dlDone := done } :: rest, history := h }
      = sequencerEdge r.plan { regs := r, inputs := i :: rest, history := h } := by
  unfold sequencerEdge
  cases he : r.plan[r.step.toNat]? with
  | none => rfl
  | some e =>
    cases hp : r.pend with
    | false => rfl
    | true =>
      cases e with
      | write data => rfl
      | delay ms =>
        have : (outputs r).dlValid = true := (dlValid_iff r).mpr ⟨hb, hp, ms, he⟩
        simp [this] at hv

/-- Two cycles alike but for the answers and `stall` give the same step if they give the same edge of the sequencer. -/
theorem step_eq_of_sequencerEdge_eq {r : Regs} {i j : Inputs} {rest : List Inputs} {h : List HistoryItem}
    (hrst : j.rst = i.rst) (hcfg : j.cfgAddr = i.cfgAddr) (hvalid : j.reqValid = i.reqValid)
    (hword : j.reqWord = i.reqWord)
    (hedge : r.busy = true → sequencerEdge r.plan { regs := r, inputs := j :: rest, history := h }
      = sequencerEdge r.plan { regs := r, inputs := i :: rest, history := h }) :
    step { regs := r, inputs := j :: rest, history := h } = step { regs := r, inputs := i :: rest, history := h } := by
  cases hb : r.busy with
  | true => simp [step_eq, hrst, hb, hedge hb, resetEdge, hcfg]
  | false =>
    have hports : i.ReadAlike r.busy j := ⟨hrst, by simp [hb, hcfg, hvalid, hword]⟩
    exact step_eq_of_readAlike (s := { regs := r, inputs := i :: rest, history := h }) rfl hports

/-! ### The step counter and the event it selects -/

/-- `STEP` after an edge of the sequencer: one more if the presented event is completed, and else the same (R25, R29). -/
theorem sequencerEdge_step {s : State} (hb : s.regs.busy = true) :
    (sequencerEdge s.regs.plan s).regs.step.toNat = s.regs.step.toNat
      + (if ((outputs s.regs).bwValid = true ∧ s.now.bwDone = true)
            ∨ ((outputs s.regs).dlValid = true ∧ s.now.dlDone = true) then 1 else 0) := by
  simp only [valid_and_done_iff, currentEvent_eq]
  obtain ⟨hs, hwait⟩ | ⟨e, -, hp, -, hs⟩ | ⟨e, he, hp, ha, hs⟩ | ⟨-, hp, -, hs⟩ :=
    sequencerEdge_cases s.regs.plan s <;> rw [hs]
  · have hno : ¬ (s.regs.busy = true ∧ s.regs.pend = true
        ∧ ∃ e, s.regs.plan[s.regs.step.toNat]? = some e ∧ answered e s.now = true) := by
      rintro ⟨-, hp, e, he, ha⟩
      have hlt := (List.getElem?_eq_some_iff.mp he).1
      rcases hwait with ⟨hp', -⟩ | ⟨-, hunanswered⟩ | hend
      · simp [hp] at hp'
      · simp [hunanswered e he] at ha
      · omega
    rw [if_neg hno]; rfl
  · simp [hp]
  · rw [if_pos ⟨hb, hp, e, he, ha⟩, complete_step, step_add_one_toNat he]
  · simp [hp]

theorem issuedItem_inj {addr addr' : BusAddr} {e e' : PlanEvent} (h : issuedItem addr e = issuedItem addr' e') :
    e = e' := by
  cases e <;> cases e' <;> cases h <;> rfl

/-- An event that the sequencer adds to the history is the current one (R28). -/
theorem sequencerEdge_new_event {plan : List PlanEvent} {s : State} {addr : BusAddr} {e : PlanEvent}
    (h : (sequencerEdge plan s).history = issuedItem addr e :: s.history) : plan[s.regs.step.toNat]? = some e := by
  obtain ⟨hs, -⟩ | ⟨e', he, -, -, hs⟩ | ⟨e', -, -, -, hs⟩ | ⟨-, -, -, hs⟩ := sequencerEdge_cases plan s <;> rw [hs] at h
  · simp at h
  · rw [he, issuedItem_inj (List.cons.inj h).1]
  · exact (answerNewest_ne_cons _ _ _ _ h).elim
  · cases e <;> cases (List.cons.inj h).1

/-- An event that a step adds to the history is the current one (R28). -/
theorem step_new_event {s t : State} {addr : BusAddr} {e : PlanEvent} (hstep : step s = .next t)
    (h : t.history = issuedItem addr e :: s.history) : currentEvent s.regs = some e := by
  obtain ⟨-, rfl⟩ | ⟨-, -, -, rfl⟩ | ⟨-, -, -, rfl⟩ | ⟨-, -, rfl⟩ := step_cases hstep
  · cases e <;> cases (List.cons.inj h).1
  · simp at h
  · cases e <;> cases (List.cons.inj h).1
  · exact sequencerEdge_new_event h

/-! ### The items of the history -/

/-- An event of a plan gives a legal item when it is issued (R83, R91). -/
theorem legalItem_issuedItem {op : Opcode} {a b : Byte} {e : PlanEvent} (he : e ∈ planOf op a b) (addr : BusAddr) :
    LegalItem (issuedItem addr e) := by
  cases e with
  | write data => exact legalFrameByte_of_mem_planOf he
  | delay ms => exact delay_eq_of_mem_planOf he

/-- An answer leaves the items legal: it changes no byte and no time (R29). -/
theorem legalItem_answerNewest {items : List HistoryItem} (h : ∀ item ∈ items, LegalItem item) (e : PlanEvent)
    (fail : Bool) : ∀ item ∈ answerNewest e fail items, LegalItem item := by
  unfold answerNewest
  split
  · rw [List.forall_mem_cons] at h ⊢
    exact h
  · rw [List.forall_mem_cons] at h ⊢
    exact h
  · exact h

theorem sequencerEdge_legalItems {s : State} (hinv : s.regs.Inv) (h : ∀ item ∈ s.history, LegalItem item) :
    ∀ item ∈ (sequencerEdge s.regs.plan s).history, LegalItem item := by
  obtain ⟨hs, -⟩ | ⟨e, he, -, -, hs⟩ | ⟨e, -, -, -, hs⟩ | ⟨-, -, -, hs⟩ := sequencerEdge_cases s.regs.plan s <;> rw [hs]
  · exact h
  · exact List.forall_mem_cons.mpr ⟨legalItem_issuedItem (List.mem_of_getElem? he) _, h⟩
  · exact legalItem_answerNewest h e _
  · obtain ⟨-, -, -, -, -, -, hlegal, -⟩ := hinv
    exact List.forall_mem_cons.mpr ⟨hlegal, h⟩

/-! ### The obligations -/

/-- Settles O20: `STEP` in each transition, the current event at the ports, and the event that an Issue adds. -/
theorem stepCounterAdvancesByOne : Obligations.StepCounterAdvancesByOne := by
  intro s t h hstep
  have ⟨_, hle, _⟩ := h
  refine ⟨fun hr => ?_, fun hr hb => ?_, fun hr hb => ?_, fun hb => ⟨hle hb, plan_length_le s.regs⟩,
    fun hv => (currentEvent_of_bwValid hv).1, fun hv => (currentEvent_of_dlValid hv).1,
    fun addr data => step_new_event (e := .write data) hstep,
    fun ms => step_new_event (addr := 0) (e := .delay ms) hstep⟩
  · rw [step_eq_resetEdge hr] at hstep
    cases hstep
    rfl
  · cases hv : s.now.reqValid with
    | true =>
      rw [step_eq_accept hr hb hv] at hstep
      cases hstep
      rfl
    | false =>
      rw [step_eq_tick hr hb hv] at hstep
      cases hstep
      rfl
  · rw [step_eq_sequencerEdge hr hb] at hstep
    cases hstep
    exact sequencerEdge_step hb

/-- Settles O40: the item that a transition adds is legal, and an answer leaves its item legal. -/
theorem stepKeepsTheHistoryItemsLegal : Obligations.StepKeepsTheHistoryItemsLegal := by
  intro s t hinv h hstep
  obtain ⟨-, rfl⟩ | ⟨-, -, -, rfl⟩ | ⟨-, -, -, rfl⟩ | ⟨-, -, rfl⟩ := step_cases hstep
  · exact List.forall_mem_cons.mpr ⟨trivial, h⟩
  · exact h
  · exact List.forall_mem_cons.mpr ⟨trivial, h⟩
  · exact sequencerEdge_legalItems hinv h

/-- Settles O41: the valid ports are read off `PEND` and the current event, which is one of the plan while pending. -/
theorem portsPresentOneEventAtMost : Obligations.PortsPresentOneEventAtMost := by
  intro r h
  refine ⟨pend_iff_valid h, not_bwValid_and_dlValid r, rfl, rfl, rfl, rfl, rfl, currentEvent_of_bwValid,
    currentEvent_of_dlValid, fun he => ?_⟩
  have he' : currentEvent r = none := he
  simp [outputs, he', writeData, delayMs]

/-- Settles O19: a step hands the answers to the sequencer alone, and they do not reach it without their event. -/
theorem strayDoneIsIgnored : Obligations.StrayDoneIsIgnored := by
  intro s i rest done fail hs
  obtain ⟨r, inputs, h⟩ := s
  cases hs
  refine ⟨fun hv => ?_, fun hv => ?_⟩
  · exact step_eq_of_sequencerEdge_eq rfl rfl rfl rfl fun hb => sequencerEdge_eq_of_not_bwValid hb hv i done fail rest h
  · exact step_eq_of_sequencerEdge_eq rfl rfl rfl rfl fun hb => sequencerEdge_eq_of_not_dlValid hb hv i done rest h

end Sys2Proof.Machine

/-! SUPPORT. The instructions as requests (10_state.md sections 2 and 3, 30_encoding.md section 4): what an edge of one leaves
unchanged, the command bytes as SEND_COMMAND (log 7), and the proofs of the statements about them. -/

namespace Sys2Proof.Machine

/-! ### Every instruction is run as a request -/

/-- Every instruction is run as a request (R26). -/
theorem exec_eq_runRequest (i : Instr) : ∃ op a b plan, ∀ s, exec i s = runRequest op a b plan s := by
  cases i <;> exact ⟨_, _, _, _, fun _ => rfl⟩

/-- A command byte's instruction is run as SEND_COMMAND of the byte (log 7). -/
theorem exec_of_encode_lcdByte {i : Instr} {v : Byte} (h : encode i = .lcdByte v) (s : State) :
    exec i s = runRequest 0x2 v 0 (cmdPlan v) s := by
  cases i <;> cases h <;> rfl

/-- Every edge of a command byte's instruction is that of SEND_COMMAND of the byte (log 7). -/
theorem runsRequest_of_encode_lcdByte {i : Instr} {v : Byte} (h : encode i = .lcdByte v) :
    RunsRequest i 0x2 v 0 0b000 (cmdPlan v) :=
  runsRequest_of_exec_eq (exec_of_encode_lcdByte h) (resAtAccept_eq_zero (by decide) rfl)

/-! ### The frame of the sequencer -/

/-- The change of the history by one transition: none, one new item, or the answer to the newest item (R50). -/
def HistoryStep (h h' : List HistoryItem) : Prop :=
  h' = h
    ∨ (∃ item, h' = item :: h)
    ∨ (∃ (addr : BusAddr) (data : Byte) (answer : Answer) (older : List HistoryItem),
        h = .write addr data none :: older ∧ h' = .write addr data (some answer) :: older)
    ∨ ∃ (ms : Byte) (older : List HistoryItem), h = .delay ms false :: older ∧ h' = .delay ms true :: older

theorem historyStep_answerNewest (e : PlanEvent) (fail : Bool) (h : List HistoryItem) :
    HistoryStep h (answerNewest e fail h) := by
  unfold answerNewest
  split
  · exact .inr (.inr (.inl ⟨_, _, _, _, rfl, rfl⟩))
  · exact .inr (.inr (.inr ⟨_, _, rfl, rfl⟩))
  · exact .inl rfl

theorem sequencerEdge_historyStep (plan : List PlanEvent) (s : State) :
    HistoryStep s.history (sequencerEdge plan s).history := by
  obtain ⟨hs, -⟩ | ⟨e, -, -, -, hs⟩ | ⟨e, -, -, -, hs⟩ | ⟨-, -, -, hs⟩ := sequencerEdge_cases plan s <;> rw [hs]
  · exact .inl rfl
  · exact .inr (.inl ⟨_, rfl⟩)
  · exact historyStep_answerNewest e _ _
  · exact .inr (.inl ⟨_, rfl⟩)

/-- A completion changes no bit of `RES` but `BUSFAIL` (R29). -/
theorem resAfterEvent_and_noBusFail (e : PlanEvent) (res : ResultBits) (fail : Bool) :
    resAfterEvent e res fail &&& 0b110 = res &&& 0b110 := by
  have hwrite : ∀ (res : ResultBits) (fail : Bool), resAfterWrite res fail &&& 0b110 = res &&& 0b110 := by decide
  cases e with
  | write data => exact hwrite res fail
  | delay ms => rfl

/-- What the sequencer leaves of the latches and of `RES` (R27, R29). -/
theorem sequencerEdge_latches (plan : List PlanEvent) (s : State) :
    (sequencerEdge plan s).regs.op = s.regs.op ∧ (sequencerEdge plan s).regs.a = s.regs.a
      ∧ (sequencerEdge plan s).regs.b = s.regs.b
      ∧ (sequencerEdge plan s).regs.res &&& 0b110 = s.regs.res &&& 0b110 := by
  obtain ⟨hs, -⟩ | ⟨e, -, -, -, hs⟩ | ⟨e, -, -, -, hs⟩ | ⟨-, -, -, hs⟩ := sequencerEdge_cases plan s <;> rw [hs]
  · exact ⟨rfl, rfl, rfl, rfl⟩
  · exact ⟨rfl, rfl, rfl, rfl⟩
  · exact ⟨rfl, rfl, rfl, resAfterEvent_and_noBusFail e _ _⟩
  · exact ⟨rfl, rfl, rfl, rfl⟩

/-- The sequencer sets `RSPV` in Respond only, and with it `RSPR` and `BUSY` (R30). -/
theorem sequencerEdge_response (plan : List PlanEvent) (s : State) :
    ((sequencerEdge plan s).regs.rspv = true →
        (sequencerEdge plan s).regs.busy = false ∧ (sequencerEdge plan s).regs.rspr = s.regs.res)
      ∧ ((sequencerEdge plan s).regs.rspv = false → (sequencerEdge plan s).regs.rspr = s.regs.rspr) := by
  obtain ⟨hs, -⟩ | ⟨e, -, -, -, hs⟩ | ⟨e, -, -, -, hs⟩ | ⟨-, -, -, hs⟩ := sequencerEdge_cases plan s <;> rw [hs]
  · exact ⟨nofun, fun _ => rfl⟩
  · exact ⟨nofun, fun _ => rfl⟩
  · exact ⟨nofun, fun _ => rfl⟩
  · exact ⟨fun _ => ⟨rfl, rfl⟩, nofun⟩

/-! ### A placed word -/

theorem code_ofBits_request (w : ReqWord) : Code.ofBits 24 w.toNat = .ok (.request w) := by
  simp [Code.ofBits, w.isLt]

theorem code_ofBits_lcdByte (v : Byte) : Code.ofBits 8 v.toNat = .ok (.lcdByte v) := by
  simp [Code.ofBits, v.isLt]

/-- The step of a state with a placed word executes the request that carries it. -/
theorem step_withFetchWord {nbits w : Nat} {c : Code} (h : Code.ofBits nbits w = .ok c) (s : State) :
    step (s.withFetchWord nbits w) = exec (decodeRequest c.requestWord) (s.withFetchWord nbits w) := by
  simp [State.withFetchWord, h, step, State.currentInstr, Inputs.present, Inputs.quiet]

/-- The request word that carries an instruction's bits is executed as the instruction (log 7). -/
theorem exec_decodeRequest_requestWord (c : Code) (s : State) :
    exec (decodeRequest c.requestWord) s = exec (decode c) s := by
  cases c with
  | request w => rfl
  | lcdByte v =>
    rw [Code.requestWord, decodeRequest_ofFields, decode, exec_of_encode_lcdByte (encode_decodeLcdCommand v)]
    rfl

/-! ### The obligations -/

/-- Settles O29: an instruction is run as a request, whose edge is an Accept of the idle engine or the sequencer's. -/
theorem instructionsLeaveTheRestUnchanged : Obligations.InstructionsLeaveTheRestUnchanged := by
  intro i s t h
  obtain ⟨op, a, b, plan, hexec⟩ := exec_eq_runRequest i
  obtain rfl : (if s.regs.busy then sequencerEdge plan s else accept op a b s) = t :=
    Host.Outcome.next.inj ((hexec s).symm.trans h)
  cases hb : s.regs.busy with
  | false =>
    exact ⟨rfl, nofun, nofun, nofun, fun _ => rfl, rfl, .inr (.inl ⟨_, rfl⟩)⟩
  | true =>
    obtain ⟨hop, ha, hb', hres⟩ := sequencerEdge_latches plan s
    obtain ⟨hset, hkeep⟩ := sequencerEdge_response plan s
    exact ⟨sequencerEdge_addr plan s, fun _ => ⟨hop, ha, hb'⟩, fun _ => hres, fun hv => ⟨rfl, hset hv⟩, hkeep,
      sequencerEdge_inputs plan s, sequencerEdge_historyStep plan s⟩

/-- Settles O28: the table's pattern of each class is the encoded byte. -/
theorem lcdCommandBytesRunAsSendCommand : Obligations.LcdCommandBytesRunAsSendCommand := by
  refine ⟨?_, ?_, fun x => ?_, fun i s => ?_, fun d c b => ?_, fun s r x => ?_, fun d n f x => ?_, fun addr => ?_,
    fun addr => ?_⟩ <;> apply runsRequest_of_encode_lcdByte
  · rfl
  · rfl
  · revert x; decide
  · revert i s; decide
  · revert d c b; decide
  · revert s r x; decide
  · revert d n f x; decide
  · revert addr; decide
  · revert addr; decide

/-- Settles O30: the next step executes the placed request, which is executed as the word's instruction. -/
theorem placedWordIsRunNext : Obligations.PlacedWordIsRunNext := by
  refine ⟨fun s w => ⟨?_, ?_⟩, fun s v => ⟨?_, ?_⟩⟩
  · simp [decodeTableWord, code_ofBits_request, decode]
  · exact (step_withFetchWord (code_ofBits_request w) s).trans (exec_decodeRequest_requestWord (.request w) _)
  · simp [decodeTableWord, code_ofBits_lcdByte, decode]
  · exact (step_withFetchWord (code_ofBits_lcdByte v) s).trans (exec_decodeRequest_requestWord (.lcdByte v) _)

end Sys2Proof.Machine

/-! SUPPORT. Whole requests (20_memory.md; R50, R58, R61, R203): a run through the cycles of an event, of a plan and of a request, and
the proofs of the statements about them. -/

namespace Sys2Proof.Machine

/-! ### Runs, piece by piece -/

/-- Two runs after each other. -/
theorem run_trans {j k : Nat} {s t u : State} (h : Host.Core.run Sys2Proof.core j s = .next t)
    (h' : Host.Core.run Sys2Proof.core k t = .next u) : Host.Core.run Sys2Proof.core (j + k) s = .next u :=
  (run_add h).trans h'

/-- A run of one step. -/
theorem run_one {s t : State} (h : step s = .next t) : Host.Core.run Sys2Proof.core 1 s = .next t :=
  run_succ h 0

/-- Cycles without a transition change nothing but the inputs, once the pulse is over (R30). -/
theorem run_of_ticks {r : Regs} (hv : r.rspv = false) (h : List HistoryItem) (cycles rest : List Inputs)
    (htick : ∀ i ∈ cycles, ∀ rest, step ⟨r, i :: rest, h⟩ = .next (State.tick ⟨r, i :: rest, h⟩)) :
    Host.Core.run Sys2Proof.core cycles.length ⟨r, cycles ++ rest, h⟩ = .next ⟨r, rest, h⟩ := by
  induction cycles with
  | nil => rfl
  | cons i cycles ih =>
    obtain ⟨hi, hcycles⟩ := List.forall_mem_cons.mp htick
    have htick_eq : State.tick ⟨r, i :: (cycles ++ rest), h⟩ = ⟨r, cycles ++ rest, h⟩ := by
      rw [State.tick, ← hv]
      rfl
    exact (run_succ ((hi _).trans (congrArg _ htick_eq)) _).trans (ih hcycles)

/-- The engine's idle cycles (log 2). -/
theorem run_of_stalls {r : Regs} (hb : r.busy = true) (hp : r.pend = false) (hv : r.rspv = false) (h : List HistoryItem)
    (cycles rest : List Inputs) (hidle : ∀ i ∈ cycles, i.rst = false ∧ i.stall = true) :
    Host.Core.run Sys2Proof.core cycles.length ⟨r, cycles ++ rest, h⟩ = .next ⟨r, rest, h⟩ := by
  refine run_of_ticks hv h cycles rest fun i hi rest => ?_
  obtain ⟨hrst, hstall⟩ := hidle i hi
  exact (step_eq_sequencerEdge (s := ⟨r, i :: rest, h⟩) hrst hb).trans
    (congrArg _ (sequencerEdge_eq_tick_of_stall _ hp hstall))

/-- The cycles in which a pending event waits for its answer (R29). -/
theorem run_of_waiting {r : Regs} {e : PlanEvent} (hb : r.busy = true) (hp : r.pend = true) (hv : r.rspv = false)
    (he : currentEvent r = some e) (h : List HistoryItem) (cycles rest : List Inputs)
    (hwait : ∀ i ∈ cycles, i.rst = false ∧ answered e i = false) :
    Host.Core.run Sys2Proof.core cycles.length ⟨r, cycles ++ rest, h⟩ = .next ⟨r, rest, h⟩ := by
  refine run_of_ticks hv h cycles rest fun i hi rest => ?_
  obtain ⟨hrst, hans⟩ := hwait i hi
  exact (step_eq_sequencerEdge (s := ⟨r, i :: rest, h⟩) hrst hb).trans
    (congrArg _ (sequencerEdge_eq_tick_of_not_answered hp he hans))

/-! ### One event -/

/-- The registers after the completion of the current event (R29). -/
def Regs.afterEvent (r : Regs) (e : PlanEvent) (fail : Bool) : Regs :=
  { r with step := r.step + 1, res := resAfterEvent e r.res fail }

/-- The Issue of an event, once the pulse is over (R28). -/
theorem step_issue {r : Regs} {e : PlanEvent} {i : Inputs} (hrst : i.rst = false) (hstall : i.stall = false)
    (hb : r.busy = true) (hp : r.pend = false) (hv : r.rspv = false) (he : currentEvent r = some e) (rest : List Inputs)
    (h : List HistoryItem) :
    step ⟨r, i :: rest, h⟩ = .next ⟨{ r with pend := true }, rest, issuedItem r.addr e :: h⟩ := by
  rw [step_eq_issue (s := ⟨r, i :: rest, h⟩) hrst hstall hb hp he, issue, State.tick, ← hv]
  rfl

/-- The Complete of the event just issued, once the pulse is over (R29). -/
theorem step_complete {r : Regs} {e : PlanEvent} {i : Inputs} (hrst : i.rst = false) (hb : r.busy = true)
    (hp : r.pend = false) (hv : r.rspv = false) (he : currentEvent r = some e) (hans : answered e i = true)
    (rest : List Inputs) (h : List HistoryItem) :
    step ⟨{ r with pend := true }, i :: rest, issuedItem r.addr e :: h⟩
      = .next ⟨r.afterEvent e i.bwFail, rest, completedItem r.addr e i.bwFail :: h⟩ := by
  rw [step_eq_sequencerEdge (s := ⟨{ r with pend := true }, i :: rest, issuedItem r.addr e :: h⟩) hrst hb,
    sequencerEdge_eq_complete rfl he hans, complete, answerNewest_issuedItem]
  obtain ⟨addr, busy, op, a, b, stp, pend, res, rspv, rspr⟩ := r
  cases hp
  cases hv
  rfl

theorem Completion.cycles_length (c : Completion) :
    c.cycles.length = c.idle.length + (1 + (c.waiting.length + 1)) := by
  simp only [Completion.cycles, List.length_append, List.length_singleton]
  omega

theorem Completion.cycles_append (c : Completion) (rest : List Inputs) :
    c.cycles ++ rest = c.idle ++ c.issue :: (c.waiting ++ c.done :: rest) := by
  simp [Completion.cycles]

/-- A run through the cycles of one event issues it and completes it (R28, R29). -/
theorem run_completion {r : Regs} {e : PlanEvent} (hb : r.busy = true) (hp : r.pend = false) (hv : r.rspv = false)
    (he : currentEvent r = some e) {c : Completion} (hc : c.Serves e) (rest : List Inputs) (h : List HistoryItem) :
    Host.Core.run Sys2Proof.core c.cycles.length ⟨r, c.cycles ++ rest, h⟩
      = .next ⟨r.afterEvent e c.done.bwFail, rest, completedItem r.addr e c.done.bwFail :: h⟩ := by
  obtain ⟨hidle, hirst, histall, hwait, hdrst, hdone⟩ := hc
  have hpend : currentEvent { r with pend := true } = some e := he
  have hissue := step_issue hirst histall hb hp hv he (c.waiting ++ c.done :: rest) h
  have hcomplete := step_complete hdrst hb hp hv he hdone rest h
  have hwaiting := run_of_waiting (r := { r with pend := true }) hb rfl hv hpend (issuedItem r.addr e :: h) c.waiting
    (c.done :: rest) hwait
  have hidles := run_of_stalls hb hp hv h c.idle (c.issue :: (c.waiting ++ c.done :: rest)) hidle
  rw [c.cycles_length, c.cycles_append]
  exact run_trans hidles (run_trans (run_one hissue) (run_trans hwaiting (run_one hcomplete)))

/-! ### All events of a plan -/

/-- The registers after the completion of the events `es`, when a write had failed before or none had (R29, R203). -/
def Regs.afterEvents (r : Regs) (failed : Bool) (es : List PlanEvent) (fails : List Bool) : Regs :=
  { r with step := r.step + BitVec.ofNat 5 es.length, res := resultOf r.op r.a (failed || anyWriteFailed es fails) }

theorem afterEvents_nil {r : Regs} {failed : Bool} (hres : r.res = resultOf r.op r.a failed) :
    r.afterEvents failed [] [] = r := by
  simp [Regs.afterEvents, anyWriteFailed, ← hres]

theorem afterEvents_cons {r : Regs} {failed : Bool} (e : PlanEvent) (fail : Bool) (es : List PlanEvent)
    (fails : List Bool) :
    (r.afterEvent e fail).afterEvents (failed || failedWrite e fail) es fails
      = r.afterEvents failed (e :: es) (fail :: fails) := by
  have hstep : r.step + 1#5 + BitVec.ofNat 5 es.length = r.step + BitVec.ofNat 5 (es.length + 1) := by
    rw [BitVec.add_assoc, Nat.add_comm, BitVec.ofNat_add]
  simp [Regs.afterEvents, Regs.afterEvent, anyWriteFailed, Bool.or_assoc, hstep]

/-- The head of what is left of a list stands at the index. -/
theorem getElem?_of_drop_eq_cons {α : Type} {l es : List α} {k : Nat} {e : α} (h : l.drop k = e :: es) :
    l[k]? = some e ∧ l.drop (k + 1) = es := by
  refine ⟨?_, ?_⟩
  · rw [← List.head?_drop, h, List.head?_cons]
  · rw [← List.tail_drop, h, List.tail_cons]

/-- A run through the cycles of the plan's remaining events completes them in order (R61). -/
theorem run_completions {r : Regs} {failed : Bool} (hb : r.busy = true) (hp : r.pend = false) (hv : r.rspv = false)
    (hres : r.res = resultOf r.op r.a failed) {todo : List PlanEvent} {cs : List Completion}
    (hcs : List.Forall₂ Completion.Serves todo cs) (htodo : r.plan.drop r.step.toNat = todo) (rest : List Inputs)
    (h : List HistoryItem) :
    Host.Core.run Sys2Proof.core (cs.flatMap Completion.cycles).length ⟨r, cs.flatMap Completion.cycles ++ rest, h⟩
      = .next ⟨r.afterEvents failed todo (cs.map fun c => c.done.bwFail), rest,
          (completedItems r.addr todo (cs.map fun c => c.done.bwFail)).reverse ++ h⟩ := by
  induction hcs generalizing r failed h with
  | nil =>
    rw [List.map_nil, afterEvents_nil hres]
    rfl
  | @cons e c es cs hc _ ih =>
    obtain ⟨he, hes⟩ := getElem?_of_drop_eq_cons htodo
    have hfirst := run_completion hb hp hv he hc (cs.flatMap Completion.cycles ++ rest) h
    have hres' : (r.afterEvent e c.done.bwFail).res = resultOf r.op r.a (failed || failedWrite e c.done.bwFail) := by
      rw [Regs.afterEvent, hres, resAfterEvent_resultOf]
    have hdrop : r.plan.drop (r.step + 1).toNat = es := by rw [step_add_one_toNat he, hes]
    have hothers := ih (r := r.afterEvent e c.done.bwFail) hb hp hv hres' hdrop
      (completedItem r.addr e c.done.bwFail :: h)
    rw [afterEvents_cons] at hothers
    simpa [completedItems, Regs.afterEvent] using run_trans hfirst hothers

/-! ### The whole request -/

/-- The registers after the Accept of a request word (R27). -/
def Regs.afterAccept (r : Regs) (w : ReqWord) : Regs :=
  { r with busy := true, op := w.opcode, a := w.argA, b := w.argB, step := 0, pend := false,
           res := resultOfWord w false, rspv := false }

/-- The Accept of a request (R27). -/
theorem step_accept {r : Regs} {i : Inputs} (hrst : i.rst = false) (hb : r.busy = false) (hvalid : i.reqValid = true)
    (rest : List Inputs) (h : List HistoryItem) :
    step ⟨r, i :: rest, h⟩ = .next ⟨r.afterAccept i.reqWord, rest, .accepted i.reqWord :: h⟩ := by
  rw [step_eq_accept (s := ⟨r, i :: rest, h⟩) hrst hb hvalid, accept, now_cons, ReqWord.ofFields_fields]
  rfl

/-- The registers after the events of a request, all completed. -/
def Regs.afterPlan (r : Regs) (w : ReqWord) (fails : List Bool) : Regs :=
  (r.afterAccept w).afterEvents false (planOfWord w) fails

/-- `STEP` stands at the end of the plan then (R25). -/
theorem afterPlan_step (r : Regs) (w : ReqWord) (fails : List Bool) :
    (r.afterPlan w fails).step = BitVec.ofNat 5 (planOfWord w).length := BitVec.zero_add _

/-- The Respond of a request whose events are all completed (R30). -/
theorem step_eq_afterRequest {r : Regs} {w : ReqWord} {fails : List Bool} {i : Inputs} (hrst : i.rst = false)
    (hstall : i.stall = false) (rest inputs : List Inputs) (h : List HistoryItem) :
    step ⟨r.afterPlan w fails, i :: rest, (completedItems r.addr (planOfWord w) fails).reverse ++ .accepted w :: h⟩
      = .next (afterRequest w fails rest ⟨r, inputs, h⟩) := by
  have hlen : (planOfWord w).length ≤ 26 := planOf_length_le _ _ _
  have hend : (r.afterPlan w fails).step.toNat = (planOfWord w).length := by
    rw [afterPlan_step, BitVec.toNat_ofNat]
    exact Nat.mod_eq_of_lt (by omega)
  refine (step_eq_respond (s := ⟨r.afterPlan w fails, i :: rest, _⟩) hrst hstall rfl rfl hend).trans ?_
  simp only [afterPlan_step]
  rfl

theorem Schedule.cycles_length (c : Schedule) :
    c.cycles.length = 1 + ((c.events.flatMap Completion.cycles).length + (c.idle.length + 1)) := by
  simp only [Schedule.cycles, List.length_append, List.length_singleton]
  omega

theorem Schedule.cycles_append (c : Schedule) (rest : List Inputs) :
    c.cycles ++ rest = c.accept :: (c.events.flatMap Completion.cycles ++ (c.idle ++ c.respond :: rest)) := by
  simp [Schedule.cycles]

/-- The items that a request adds to the history, newest first. -/
def requestItems (addr : BusAddr) (w : ReqWord) (fails : List Bool) : List HistoryItem :=
  .respond (resultOfWord w (anyWriteFailed (planOfWord w) fails))
    :: ((completedItems addr (planOfWord w) fails).reverse ++ [.accepted w])

theorem afterRequest_history (w : ReqWord) (fails : List Bool) (rest : List Inputs) (s : State) :
    (afterRequest w fails rest s).history = requestItems s.regs.addr w fails ++ s.history := by
  simp [afterRequest, requestItems]

/-! ### The obligations -/

/-- Settles O42: Accept, each event's cycles in turn, the engine's idle cycles and Respond, one after the other. -/
theorem requestRunsToItsResponse : Obligations.RequestRunsToItsResponse := by
  intro s w c rest hb hc hs
  obtain ⟨r, inputs, h⟩ := s
  obtain ⟨harst, hvalid, rfl, hevents, hidle, hrrst, hrstall⟩ := hc
  obtain rfl : inputs = c.cycles ++ rest := hs
  have haccept := step_accept harst hb hvalid (c.events.flatMap Completion.cycles ++ (c.idle ++ c.respond :: rest)) h
  have hevents' := run_completions (r := r.afterAccept c.accept.reqWord) rfl rfl rfl rfl hevents List.drop_zero
    (c.idle ++ c.respond :: rest) (.accepted c.accept.reqWord :: h)
  have hidles := run_of_stalls (r := r.afterPlan c.accept.reqWord c.fails) rfl rfl rfl
    ((completedItems r.addr (planOfWord c.accept.reqWord) c.fails).reverse ++ .accepted c.accept.reqWord :: h)
    c.idle (c.respond :: rest) hidle
  rw [c.cycles_length, c.cycles_append]
  exact run_trans (run_one haccept)
    (run_trans hevents' (run_trans hidles (run_one (step_eq_afterRequest hrrst hrstall rest _ h))))

/-- Settles O44: what a request leaves behind depends on `ADDR`, the word and the answers, and it keeps `ADDR`. -/
theorem repeatedRequestRepeatsItsEvents : Obligations.RepeatedRequestRepeatsItsEvents := by
  intro s w c c' rest hb hc hc' hfails hs
  have hfirst := requestRunsToItsResponse s w c (c'.cycles ++ rest) hb hc hs
  have hsecond := requestRunsToItsResponse (afterRequest w c.fails (c'.cycles ++ rest) s) w c' rest rfl hc' rfl
  rw [hfails] at hsecond
  exact ⟨_, _, requestItems s.regs.addr w c.fails, hfirst, hsecond, rfl, afterRequest_history _ _ _ _,
    afterRequest_history _ _ _ _⟩

end Sys2Proof.Machine

/-! SUPPORT. What the transport's answers can change (R54): each transition of a state without the answers is, but for the answers,
that of the state itself; and the proof of the statement. -/

namespace Sys2Proof.Machine

/-! ### Erasing the answers -/

/-- A result without `BUSFAIL`, and registers without it (R24). -/
def eraseBusFail (res : ResultBits) : ResultBits := res &&& 0b110

def Regs.eraseBusFail (r : Regs) : Regs :=
  { r with res := Machine.eraseBusFail r.res, rspr := Machine.eraseBusFail r.rspr }

/-- An input cycle without `bw_fail`. -/
def Inputs.eraseFail (i : Inputs) : Inputs := { i with bwFail := false }

/-- `State.eraseFailures`, field by field. -/
theorem eraseFailures_eq (s : State) :
    s.eraseFailures = ⟨s.regs.eraseBusFail, s.inputs.map Inputs.eraseFail, s.history.map HistoryItem.eraseFailure⟩ :=
  rfl

@[simp] theorem eraseBusFail_eraseBusFail (res : ResultBits) : eraseBusFail (eraseBusFail res) = eraseBusFail res := by
  rw [eraseBusFail, eraseBusFail, BitVec.and_assoc, BitVec.and_self]

@[simp] theorem eraseFail_comp_eraseFail : Inputs.eraseFail ∘ Inputs.eraseFail = Inputs.eraseFail := rfl

@[simp] theorem eraseFailure_respond (r : ResultBits) :
    (HistoryItem.respond r).eraseFailure = .respond (eraseBusFail r) := rfl

@[simp] theorem eraseFailure_eraseFailure (item : HistoryItem) :
    item.eraseFailure.eraseFailure = item.eraseFailure := by
  rcases item with _ | _ | ⟨_, _, _ | _⟩ | _ | r
  · rfl
  · rfl
  · rfl
  · rfl
  · rfl
  · simp

@[simp] theorem eraseFailure_comp_eraseFailure :
    HistoryItem.eraseFailure ∘ HistoryItem.eraseFailure = HistoryItem.eraseFailure :=
  funext eraseFailure_eraseFailure

@[simp] theorem eraseFailures_now (s : State) : s.eraseFailures.now = s.now.eraseFail := by
  obtain ⟨r, inputs, h⟩ := s
  cases inputs <;> rfl

/-! ### Completions without the answers -/

/-- `RES` without `BUSFAIL` does not change in a completion (R29). -/
@[simp] theorem eraseBusFail_resAfterEvent (e : PlanEvent) (res : ResultBits) (fail : Bool) :
    eraseBusFail (resAfterEvent e res fail) = eraseBusFail res :=
  resAfterEvent_and_noBusFail e res fail

/-- The history without the answers records only that an event is answered (R29). -/
theorem map_eraseFailure_answerNewest (e : PlanEvent) (fail fail' : Bool) (items : List HistoryItem) :
    (answerNewest e fail' (items.map HistoryItem.eraseFailure)).map HistoryItem.eraseFailure
      = (answerNewest e fail items).map HistoryItem.eraseFailure := by
  rcases items with _ | ⟨_ | _ | ⟨_, _, _ | _⟩ | ⟨_, _ | _⟩ | _, older⟩ <;> cases e <;>
    simp [answerNewest, HistoryItem.eraseFailure, BitVec.and_assoc]

/-! ### The transitions without the answers -/

theorem eraseFailures_tick (s : State) : s.eraseFailures.tick.eraseFailures = s.tick.eraseFailures := by
  simp [eraseFailures_eq, State.tick, Regs.eraseBusFail, ← List.map_tail]

theorem eraseFailures_accept (op : Opcode) (a b : Byte) (s : State) :
    (accept op a b s.eraseFailures).eraseFailures = (accept op a b s).eraseFailures := by
  simp [eraseFailures_eq, accept, State.tick, Regs.eraseBusFail, ← List.map_tail, HistoryItem.eraseFailure]

theorem eraseFailures_issue (e : PlanEvent) (s : State) :
    (issue e s.eraseFailures).eraseFailures = (issue e s).eraseFailures := by
  simp [eraseFailures_eq, issue, State.tick, Regs.eraseBusFail, ← List.map_tail]

theorem eraseFailures_complete (e : PlanEvent) (s : State) :
    (complete e s.eraseFailures).eraseFailures = (complete e s).eraseFailures := by
  simp [eraseFailures_eq, complete, State.tick, Regs.eraseBusFail, ← List.map_tail,
    map_eraseFailure_answerNewest e s.now.bwFail]

theorem eraseFailures_respond (s : State) : (respond s.eraseFailures).eraseFailures = (respond s).eraseFailures := by
  simp [eraseFailures_eq, respond, State.tick, Regs.eraseBusFail, ← List.map_tail]

theorem eraseFailures_resetEdge (s : State) :
    (resetEdge s.eraseFailures).eraseFailures = (resetEdge s).eraseFailures := by
  have hcfg : s.eraseFailures.now.cfgAddr = s.now.cfgAddr := by rw [eraseFailures_now]; rfl
  rw [resetEdge, resetEdge, hcfg]
  simp [eraseFailures_eq, ← List.map_tail, HistoryItem.eraseFailure]

/-- The sequencer decides on nothing that is erased. -/
theorem eraseFailures_sequencerEdge (plan : List PlanEvent) (s : State) :
    (sequencerEdge plan s.eraseFailures).eraseFailures = (sequencerEdge plan s).eraseFailures := by
  have hans : ∀ e, answered e s.eraseFailures.now = answered e s.now := by
    intro e
    rw [eraseFailures_now]
    cases e <;> rfl
  have hstall : s.eraseFailures.now.stall = s.now.stall := by rw [eraseFailures_now]; rfl
  have hstep : s.eraseFailures.regs.step = s.regs.step := rfl
  have hpend : s.eraseFailures.regs.pend = s.regs.pend := rfl
  simp only [sequencerEdge, hans, hstall, hstep, hpend]
  cases plan[s.regs.step.toNat]? with
  | none =>
    simp only
    split_ifs
    · exact eraseFailures_tick s
    · exact eraseFailures_tick s
    · exact eraseFailures_respond s
    · exact eraseFailures_tick s
  | some e =>
    simp only
    split_ifs
    · exact eraseFailures_complete e s
    · exact eraseFailures_tick s
    · exact eraseFailures_tick s
    · exact eraseFailures_issue e s

/-- A step of the state without the answers is, but for the answers, the step of the state. -/
theorem step_eraseFailures {s t : State} (h : step s = .next t) :
    ∃ u, step s.eraseFailures = .next u ∧ u.eraseFailures = t.eraseFailures := by
  refine ⟨_, step_eq s.eraseFailures, ?_⟩
  have hbusy : s.eraseFailures.regs.busy = s.regs.busy := rfl
  have hplan : s.eraseFailures.regs.plan = s.regs.plan := rfl
  obtain ⟨hr, rfl⟩ | ⟨hr, hb, hv, rfl⟩ | ⟨hr, hb, hv, rfl⟩ | ⟨hr, hb, rfl⟩ := step_cases h
  · simp [Inputs.eraseFail, hr, eraseFailures_resetEdge]
  · simp [Inputs.eraseFail, hr, hbusy, hb, hv, eraseFailures_tick]
  · simp [Inputs.eraseFail, hr, hbusy, hb, hv, eraseFailures_accept]
  · simp [Inputs.eraseFail, hr, hbusy, hb, hplan, eraseFailures_sequencerEdge]

/-! ### The obligation -/

/-- Settles O43: the steps of two such states are, but for the answers, that of the one state without the answers. -/
theorem answersChangeOnlyBusFail : Obligations.AnswersChangeOnlyBusFail := by
  intro s s' h
  obtain ⟨u, hu, hut⟩ := step_eraseFailures (step_eq s)
  obtain ⟨u', hu', hut'⟩ := step_eraseFailures (step_eq s')
  rw [h] at hu
  obtain rfl : u = u' := Host.Outcome.next.inj (hu.symm.trans hu')
  exact ⟨_, _, step_eq s, step_eq s', hut.symm.trans hut'⟩

end Sys2Proof.Machine
